-- ==== Sys2Proof/Word.lean ====
section
/-! DEFINITION. The word types of the part: a byte of the exchange memory, a 16-bit link or gauge word, and the
32-bit millisecond clock (section 6.4). Everything else the manual counts in plain units is a `Nat` or an `Int`. -/

namespace Sys2Proof

/-- One byte of the exchange memory or of a link transfer. -/
abbrev Byte := BitVec 8

/-- A 16-bit word: a link register, a gauge reading, a light count, an axis as the accelerometer sends it. -/
abbrev Half := BitVec 16

/-- The free-running 32-bit ms clock and the 32-bit seconds count (section 6.4). -/
abbrev Clock := BitVec 32

end Sys2Proof
end

