-- ==== Sys2Proof/Config.lean ====
section
/-! DEFINITION. What is fixed for the machine: the manual's fixed periods and limits, and the FREE VALUES, which the
manual leaves open. A free value is an opaque constant without a body: no proof can see which value it has. -/

namespace Sys2Proof.Config

/-- FREE VALUE (log entry 3). The turn of two reports of which the manual says that either may be taken first (R146, R161, R55, R83), or that
neither waits for the other (R45, R57, R102), or whose order it does not name (R12 with R66). It is applied to the model's turn counter, so that
each such moment has a value of its own. -/
opaque order : Nat → Bool

/-- FREE VALUE (log entry 4). Whether a loss comparator reads ABOVE when the source voltage EQUALS its threshold; R3 and R4 do
not say. Applied to the turn counter and to the source's number. -/
opaque atThreshold : Nat → Nat → Bool

/-- FREE VALUE (log entry 28). The temperature of a snapshot where the gauge's reading less 2,732 lies above the field's range, which R28
does not settle. Applied to the value read. -/
opaque gaugeTemp : Nat → Int

/-- FREE VALUE (log entry 29). The detail byte of a card whose pack reports a cell count above 255, which R34 does not settle. Applied
to the cell count. -/
opaque cellDetail : Nat → Byte

/-- FREE VALUE (log entry 30). Whether the release timer, published in units of 10 ms, is rounded up where it is no whole number of
units; section 13.5 does not say. Applied to the ms remaining. -/
opaque releaseRoundsUp : Nat → Bool

/-- R5. Inlet settle, ms. -/
def inletSettle : Nat := 250
/-- R14. Transfer settle, ms. -/
def transferSettle : Nat := 20
/-- R17. POST_IMPACT timer, ms. -/
def postImpact : Nat := 2000
/-- R43. Removal confirm timer, ms. -/
def removalConfirm : Nat := 20
/-- R44. Bay settle, ms. -/
def baySettle : Nat := 500
/-- R49. Button debounce, ms. -/
def debounce : Nat := 50
/-- R56. Prepare limit, ms. -/
def prepareLimit : Nat := 2000
/-- R92. Charger rate settle, ms. -/
def rateSettle : Nat := 200
/-- R110. Light integration, ms. -/
def integration : Nat := 100
/-- R111. Light wait after a failed transaction, ms. -/
def lightWait : Nat := 100
/-- R117. Light fault timer, ms. -/
def lightFault : Nat := 300
/-- R141. Motion stall timer, ms. -/
def motionStall : Nat := 20
/-- R150. Park acknowledge timer, ms. -/
def parkAck : Nat := 20
/-- R180, R183. Deglitch of the platform lines, ms. -/
def deglitch : Nat := 2
/-- R69. Power of a lock actuator, mW. -/
def lockPower : Nat := 2400
/-- R70. Floor of the CHARGER entry, mW. -/
def chargerFloor : Nat := 5000
/-- R6. An UNKNOWN adapter counts as this, mW. -/
def unknownAdapter : Nat := 45000
/-- R38. Limit basis of a pack whose link is LOST, mW. -/
def lostBasis : Nat := 15000
/-- R38. Limit basis of a pack without a snapshot, mW. -/
def defaultBasis : Nat := 30000
/-- Section 7.1. The greatest lux figure the part expresses. -/
def luxMax : Nat := 131071
/-- The bytes of the exchange memory (R166). -/
def memorySize : Nat := 8192
/-- How many reports between blocks one step takes at most before it ends (log entry 6); what is left waits in
`State.reports` and is taken first in the next step that takes reports. -/
def cascade : Nat := 512

end Sys2Proof.Config
end

