-- ==== Sys2Proof/Syntax.lean ====
section
/-! DEFINITION. The commands of the part: one constructor of `Instr` for each row of spec/opcode_table.json, in the
table's order, with what the row's event or operation brings from outside (a line's level, a sensor's reading, a
link transfer's address and bytes). An event without operands is the expiry of a timer or a period. -/

namespace Sys2Proof

/-- The three sources, in the order of the source table (section 1.1). -/
inductive Source where
  | inlet
  | packA
  | packB
deriving DecidableEq, Repr

/-- The two bays; pack x is the pack of bay x. -/
inductive Bay where
  | a
  | b
deriving DecidableEq, Repr

/-- The voltages at the source side of the three switches, in mV, as the loss comparators see them (R3). -/
structure Supply where
  inlet : Nat
  packA : Nat
  packB : Nat
deriving DecidableEq, Repr

/-- One sense sample of one source: mV, and mA with discharge positive, before the limits of R2. -/
structure Reading where
  mv : Nat
  ma : Int
deriving DecidableEq, Repr

/-- The four alarm indications of a gauge's status word (R28); their places in the word belong to the gauge. -/
structure Alarms where
  overTemp : Bool
  terminateDischarge : Bool
  terminateCharge : Bool
  full : Bool
deriving DecidableEq, Repr

/-- What the part finds at its pins while it starts up (R24, R42, R98, R180, R182, R183). -/
structure Pins where
  supply : Supply
  /-- ADP_ID, mV -/
  adpId : Nat
  /-- DET_A, DET_B: the contact is closed -/
  detA : Bool
  detB : Bool
  /-- BTN_A, BTN_B: the button is down -/
  btnA : Bool
  btnB : Bool
  /-- the three thermistors, 0.1 °C -/
  panel : Int
  charger : Int
  enclosure : Int
  /-- HRST# is low -/
  hrstLow : Bool
  ps0 : Bool
  ps1 : Bool
  /-- PARK_ACK is asserted -/
  parkAck : Bool
deriving DecidableEq, Repr

/-- The commands. -/
inductive Instr where
  /-- R182 -/
  | powerOnReset (pins : Pins)
  /-- R183: the new level of HRST#; `low` is the active level -/
  | hrstChange (low : Bool)
  /-- R183 -/
  | hrstDeglitchExpiry
  /-- R180: the levels of PS0 and PS1 after the change -/
  | psLineChange (ps0 ps1 : Bool)
  /-- R180 -/
  | psDeglitchExpiry
  /-- R2: the three readings -/
  | senseSample (inlet packA packB : Reading)
  /-- R4: the new output of the source's comparator, `above` or below -/
  | comparatorTrip (src : Source) (above : Bool)
  /-- R5, R6: ADP_ID in mV as measured at the expiry -/
  | inSettleExpiry (adpId : Nat)
  /-- R16 -/
  | transferSettleExpiry
  /-- R17 -/
  | postImpactExpiry
  /-- R27: the value read, and the alarm indications where it is the status read (R28) -/
  | gaugeAttemptDone (bay : Bay) (value : Half) (alarms : Alarms)
  /-- R27 -/
  | gaugeAttemptNak (bay : Bay)
  /-- R27 -/
  | gaugeAttemptTimeout (bay : Bay)
  /-- R31 -/
  | pollIntervalExpiry (bay : Bay)
  /-- R43: DET_x is closed or open after the change -/
  | contactChange (bay : Bay) (closed : Bool)
  /-- R45 -/
  | removalConfirmExpiry (bay : Bay)
  /-- R44 -/
  | baySettleExpiry (bay : Bay)
  /-- R49: BTN_x is down or up after the change -/
  | buttonChange (bay : Bay) (pressed : Bool)
  /-- R49 -/
  | buttonDebounceExpiry (bay : Bay)
  /-- R56 -/
  | prepareLimitExpiry (bay : Bay)
  /-- R60 -/
  | releaseWindowExpiry (bay : Bay)
  /-- R92 -/
  | risingSettleExpiry
  /-- R92 -/
  | fallingSettleExpiry
  /-- R98: the three thermistors in 0.1 °C -/
  | thermistorSampling (panel charger enclosure : Int)
  /-- R110 -/
  | lightStartDone
  /-- R110 -/
  | integrationExpiry
  /-- R110: the counts C and I -/
  | lightReadDone (c i : Half)
  /-- R111 -/
  | lightTransactionNak
  /-- R111 -/
  | lightTransactionTimeout
  /-- R111 -/
  | lightWaitExpiry
  /-- R118 -/
  | lightIdleDone
  /-- R117 -/
  | lightFaultTimerExpiry
  /-- R131 -/
  | slewTick
  /-- R134 -/
  | tokenReleaseExpiry
  /-- R140 -/
  | motionReadTick
  /-- R140: the seven bytes read: the sequence number and three signed axes -/
  | motionReadDone (seq : Byte) (x y z : Half)
  /-- R141 -/
  | motionStallExpiry
  /-- R150: PARK_ACK after the change -/
  | parkAckChange (asserted : Bool)
  /-- R150 -/
  | ackTimerExpiry
  /-- R153 -/
  | motionPageTick
  /-- R167 -/
  | msClockTick
  /-- R167 -/
  | secondsTick
  /-- R166: the address (`none`: the transfer ended before it was complete) and the data bytes clocked -/
  | memoryRead (addr : Option Half) (count : Nat)
  /-- R166: the address and the whole data bytes -/
  | memoryWrite (addr : Option Half) (data : List Byte)
  /-- R166: the register address and the data bytes clocked -/
  | registerRead (addr : Option Half) (count : Nat)
  /-- R166: the register address and the whole data bytes -/
  | registerWrite (addr : Option Half) (data : List Byte) (supply : Supply)
  /-- R166: the command byte and the bytes clocked after it -/
  | unknownCommand (cmd : Byte) (count : Nat)
  /-- R178: the value written to ATTN -/
  | attnWrite (value : Half)
  /-- R169: the value written to MASK -/
  | maskWrite (value : Half)
  /-- R170: the value written to CONTROL. Its RUN field may make the walker take the card at its slot; `supply`
  is what the comparators see then (R3), read where that card is a SET_SOURCE_TRIP card -/
  | controlRun (value : Half) (supply : Supply)
  /-- R170: the value written to CONTROL -/
  | controlRecheck (value : Half) (supply : Supply)
  /-- R170, R179: the value written to CONTROL -/
  | softReset (value : Half)
  /-- R173: the value written to NUDGE -/
  | nudge (value : Half) (supply : Supply)
  /-- R173 -/
  | recheckExpiry (supply : Supply)
  /-- R121. This and the rows that follow are the taking of a card of the kind by the RUNNING walker (R172). The
  card's tag and parameters are those of the slot at the walker's index (R171) -/
  | setPanel
  /-- R123 -/
  | setCurve
  /-- R124 -/
  | setBrightness
  /-- R119 -/
  | setLight
  /-- R71 -/
  | setLoad
  /-- R67 -/
  | setBaseLoad
  /-- R12 -/
  | setPowerPolicy
  /-- R3: the voltages the comparators see when the new threshold is in force -/
  | setSourceTrip (supply : Supply)
  /-- R86 -/
  | setCharge
  /-- R104 -/
  | setThermal
  /-- R149 -/
  | setMotion
  /-- R160 -/
  | setClassifier
  /-- R177 -/
  | setHold
  /-- R31 -/
  | setGauge
  /-- R63 -/
  | releaseBay
  /-- R34 -/
  | identifyPack
  /-- R152 -/
  | park
  /-- R151 -/
  | releasePark
  /-- R174 -/
  | unknownKindCard
deriving DecidableEq, Repr

end Sys2Proof
end

