-- ==== Sys2Proof/WellFormed.lean ====
section
/-! DEFINITION. Which commands are well formed: where the table has several rows for one kind of link transfer, a command stands in its
own row, and a transfer that ended before its address was complete carries nothing after it. Every other command is well formed with any
operands: what a pin or a sensor brings is not the part's to choose. -/

namespace Sys2Proof

/-- The four command bytes of section 13.3. -/
def knownCommand (cmd : Byte) : Bool := cmd == 0x31 || cmd == 0x32 || cmd == 0x35 || cmd == 0x36

/-- A read whose address was not complete clocked no data byte (R166). -/
def completeRead (addr : Option Half) (count : Nat) : Bool := addr.isSome || count == 0

/-- A write whose address was not complete carried no data byte (R166). -/
def completeWrite (addr : Option Half) (data : List Byte) : Bool := addr.isSome || data.isEmpty

/-- A register write that takes effect: it belongs to the row of its register (R169). -/
def wholeRegisterWrite (addr : Option Half) (data : List Byte) : Bool :=
  match addr with
  | some a => decide (a.toNat ≤ 3) && decide (2 ≤ data.length)
  | none => false

/-- The commands that are well formed. -/
def wellFormed (i : Instr) : Bool :=
  match i with
  | .powerOnReset _ => true
  | .hrstChange _ => true
  | .hrstDeglitchExpiry => true
  | .psLineChange _ _ => true
  | .psDeglitchExpiry => true
  | .senseSample _ _ _ => true
  | .comparatorTrip _ _ => true
  | .inSettleExpiry _ => true
  | .transferSettleExpiry => true
  | .postImpactExpiry => true
  | .gaugeAttemptDone _ _ _ => true
  | .gaugeAttemptNak _ => true
  | .gaugeAttemptTimeout _ => true
  | .pollIntervalExpiry _ => true
  | .contactChange _ _ => true
  | .removalConfirmExpiry _ => true
  | .baySettleExpiry _ => true
  | .buttonChange _ _ => true
  | .buttonDebounceExpiry _ => true
  | .prepareLimitExpiry _ => true
  | .releaseWindowExpiry _ => true
  | .risingSettleExpiry => true
  | .fallingSettleExpiry => true
  | .thermistorSampling _ _ _ => true
  | .lightStartDone => true
  | .integrationExpiry => true
  | .lightReadDone _ _ => true
  | .lightTransactionNak => true
  | .lightTransactionTimeout => true
  | .lightWaitExpiry => true
  | .lightIdleDone => true
  | .lightFaultTimerExpiry => true
  | .slewTick => true
  | .tokenReleaseExpiry => true
  | .motionReadTick => true
  | .motionReadDone _ _ _ _ => true
  | .motionStallExpiry => true
  | .parkAckChange _ => true
  | .ackTimerExpiry => true
  | .motionPageTick => true
  | .msClockTick => true
  | .secondsTick => true
  | .memoryRead addr count => completeRead addr count
  | .memoryWrite addr data => completeWrite addr data
  | .registerRead addr count => completeRead addr count
  | .registerWrite addr data _ => completeWrite addr data && !wholeRegisterWrite addr data
  | .unknownCommand cmd _ => !knownCommand cmd
  | .attnWrite _ => true
  | .maskWrite _ => true
  | .controlRun value _ => !value.getLsbD 1
  | .controlRecheck value _ => !value.getLsbD 1
  | .softReset value => value.getLsbD 1
  | .nudge _ _ => true
  | .recheckExpiry _ => true
  | .setPanel => true
  | .setCurve => true
  | .setBrightness => true
  | .setLight => true
  | .setLoad => true
  | .setBaseLoad => true
  | .setPowerPolicy => true
  | .setSourceTrip _ => true
  | .setCharge => true
  | .setThermal => true
  | .setMotion => true
  | .setClassifier => true
  | .setHold => true
  | .setGauge => true
  | .releaseBay => true
  | .identifyPack => true
  | .park => true
  | .releasePark => true
  | .unknownKindCard => true

end Sys2Proof
end

