-- ==== Sys2Proof/Decode.lean ====
section
/-! DEFINITION. From outside bits to commands. The opcode table gives bits to no row, so `decodeTableWord` reads none. The commands that
arrive over the link do have an encoding, that of a transfer's bytes (R166, section 13.3): `decodeTransfer` reads a transfer whole, as
the command that it is, and `encodeTransfer` writes it. -/

namespace Sys2Proof

/-- The command that a word spells by the opcode table's bits: the table gives no row any (log entry 17). -/
def decodeTableWord (_nbits _w : Nat) : Option Instr := none

/-! ### Link transfers (R166, section 13.3) -/

/-- What one link transfer carries: the bytes that the host sends before it ends the transfer, whole bytes only. A read clocks bytes
whose values do not matter. -/
abbrev LinkBytes := List Byte

/-- The address that follows the command byte, low byte first, with the bytes after it; none where the transfer ended before. -/
def LinkBytes.address : LinkBytes → Option Half × List Byte
  | lo :: hi :: rest => (some (hi ++ lo), rest)
  | _ => (none, [])

/-- A register write whose two data bytes are complete, by its register's row. -/
def decodeWrite (a : Half) (v : Half) (supply : Supply) (data : List Byte) : Instr :=
  match a.toNat with
  | 0 => .attnWrite v
  | 1 => .maskWrite v
  | 2 => if v.getLsbD 1 then .softReset v else .controlRun v supply
  | 3 => .nudge v supply
  | _ => .registerWrite (some a) data supply

/-- The command that a transfer is. `supply` is what the comparators see, which a card that the walker takes may need. -/
def decodeTransfer (t : LinkBytes) (supply : Supply) : Option Instr :=
  match t with
  | [] => none
  | cmd :: rest =>
    let a := LinkBytes.address rest
    if cmd = 0x31 then some (.memoryRead a.1 a.2.length)
    else if cmd = 0x32 then some (.memoryWrite a.1 a.2)
    else if cmd = 0x35 then some (.registerRead a.1 a.2.length)
    else if cmd = 0x36 then
      match a with
      | (some r, lo :: hi :: more) => some (decodeWrite r (hi ++ lo) supply (lo :: hi :: more))
      | _ => some (.registerWrite a.1 a.2 supply)
    else some (.unknownCommand cmd rest.length)

/-- The two bytes of a 16-bit word, low byte first. -/
def halfBytes (v : Half) : List Byte := [v.setWidth 8, (v >>> 8).setWidth 8]

/-- An address that is complete, or none; the bytes that follow only where it is. -/
def addressBytes (a : Option Half) (rest : List Byte) : LinkBytes :=
  match a with
  | some a => halfBytes a ++ rest
  | none => []

/-- The transfer that a link command is; none for a command that does not come over the link. A read clocks zeros. CONTROL_RECHECK is
the same transfer as CONTROL_RUN: the table has a row for each of the register's two uses (log entry 27). -/
def encodeTransfer : Instr → Option LinkBytes
  | .memoryRead a n => some (0x31 :: addressBytes a (List.replicate n 0))
  | .memoryWrite a data => some (0x32 :: addressBytes a data)
  | .registerRead a n => some (0x35 :: addressBytes a (List.replicate n 0))
  | .registerWrite a data _ => some (0x36 :: addressBytes a data)
  | .unknownCommand cmd n => some (cmd :: List.replicate n 0)
  | .attnWrite v => some (0x36 :: addressBytes (some 0) (halfBytes v))
  | .maskWrite v => some (0x36 :: addressBytes (some 1) (halfBytes v))
  | .controlRun v _ => some (0x36 :: addressBytes (some 2) (halfBytes v))
  | .controlRecheck v _ => some (0x36 :: addressBytes (some 2) (halfBytes v))
  | .softReset v => some (0x36 :: addressBytes (some 2) (halfBytes v))
  | .nudge v _ => some (0x36 :: addressBytes (some 3) (halfBytes v))
  | _ => none

end Sys2Proof
end

