-- ==== Sys2Proof/Machine/State.lean ====
section
/-! DEFINITION. The state of the HW-640 as plain data, block by block (section 3 of the overview names each block's own
state), and its value after power-on reset (R182, steps 1 and 2). -/

namespace Sys2Proof.Machine

/-- Why a command has no meaning. -/
inductive Refusal where
  /-- Raised by `exec` for a row of the opcode table that has no meaning yet. Safe: nothing is claimed about it. -/
  | notModelled (mnemonic : String)
deriving DecidableEq, Repr

/-- The reasons for which the part stops. The manual names none: no command stops the HW-640, so the type has no constructor
and no step can answer a fault (log entry 7). -/
inductive Fault where
deriving DecidableEq, Repr

/-- A running timer: the ms clock at its start and its period in ms. Its remaining time is worked out from the clock. -/
structure Timer where
  start : Clock
  period : Nat
deriving DecidableEq, Repr

/-! ### SMON: the source table (section 1.1) -/

inductive Presence where
  | absent
  | settling
  | present
deriving DecidableEq, Repr

/-- The adapter classes of R6. -/
inductive AdapterClass where
  | mw45
  | mw65
  | mw90
  | mw130
  | unknown
deriving DecidableEq, Repr

/-- One entry of the source table. -/
structure SourceEntry where
  presence : Presence
  /-- the switch is CLOSED (SW_x asserted, R8) -/
  closed : Bool
  mv : Nat
  ma : Int
  /-- the comparator output is ABOVE -/
  above : Bool
  /-- the trip range is HIGH -/
  tripHigh : Bool
  tripCode : Nat
  limit : Nat
deriving DecidableEq, Repr

structure Smon where
  inlet : SourceEntry
  packA : SourceEntry
  packB : SourceEntry
  /-- R5, the 250 ms settle of IN -/
  settle : Option Timer
  adapter : Option AdapterClass
  override : Nat
deriving DecidableEq, Repr

/-! ### PATH (sections 1.2 to 1.5) -/

/-- A set of sources: feeding, incoming, outgoing, preferred. -/
structure SourceSet where
  inlet : Bool
  packA : Bool
  packB : Bool
deriving DecidableEq, Repr

inductive PathMode where
  | steady
  | making
  | paused
  | brownout
deriving DecidableEq, Repr

inductive Reason where
  | inReturn
  | sequential
  | policy
  | releaseA
  | releaseB
deriving DecidableEq, Repr

/-- The transfer record (R14). -/
structure Transfer where
  incoming : SourceSet
  outgoing : SourceSet
  reason : Reason
  start : Clock
  settle : Option Timer
deriving DecidableEq, Repr

inductive HoldKind where
  | freefall
  | postImpact
  | software
deriving DecidableEq, Repr

structure HoldSet where
  freefall : Bool
  postImpact : Bool
  software : Bool
deriving DecidableEq, Repr

inductive DischargeMode where
  | parallel
  | sequential
deriving DecidableEq, Repr

structure Path where
  mode : PathMode
  transfer : Option Transfer
  holds : HoldSet
  postImpact : Option Timer
  discharge : DischargeMode
  reserve : Nat
  measured : Nat
deriving DecidableEq, Repr

/-! ### GLU (section 2.1) -/

inductive Link where
  | none
  | ident
  | online
  | degraded
  | lost
deriving DecidableEq, Repr

structure Identity where
  serial : Nat
  cells : Nat
  design : Nat
deriving DecidableEq, Repr

structure Snapshot where
  mv : Nat
  ma : Int
  temp : Int
  charge : Nat
  remaining : Nat
  full : Nat
  maxPower : Nat
  alarms : Alarms
  stamp : Clock
deriving DecidableEq, Repr

/-- What a gauge channel is doing (R28, R33, R34, R36). -/
inductive GaugeKind where
  /-- the identification of a bay in IDENTIFYING (R33) -/
  | identBay
  /-- the identification of an IDENTIFY_PACK card (R34) -/
  | identCard
  /-- an ordinary poll (R28) -/
  | poll
  /-- a re-identifying poll (R36) -/
  | reident
deriving DecidableEq, Repr

/-- A poll or an identification in flight. -/
structure GaugeOp where
  kind : GaugeKind
  /-- the values read so far, in order -/
  gathered : List Nat
  /-- the failed attempts of the present read (R27) -/
  failed : Nat
  /-- a SUSPECT mark arrived while the identity was being read (R35) -/
  marked : Bool
deriving DecidableEq, Repr

structure PackRecord where
  link : Link
  identity : Option Identity
  snapshot : Option Snapshot
  failureRun : Nat
  suspect : Bool
  forcedPending : Bool
  op : Option GaugeOp
  /-- an IDENTIFY_PACK identification waits for the poll in flight to end (R34) -/
  identWaiting : Bool
  interval : Option Timer
deriving DecidableEq, Repr

structure Glu where
  packA : PackRecord
  packB : PackRecord
  pollInterval : Nat
  retryLimit : Nat
deriving DecidableEq, Repr

/-! ### Cards and results (section 11.5) -/

inductive Result where
  | ok
  | clamped
  | badParam
  | unknownKind
  | busy
  | refusedSource
  | refusedState
  | held
  | removed
  | aborted
  | timeout
  | linkFailed
deriving DecidableEq, Repr

/-! ### BAYC (section 3.1) -/

inductive BayState where
  | empty
  | settling
  | identifying
  | seated
  | preparing
  | released
  | unusable
deriving DecidableEq, Repr

/-- The origin of a release request; a card's with its slot. -/
inductive Origin where
  | button
  | card (slot : BitVec 5)
deriving DecidableEq, Repr

structure Request where
  origin : Origin
  start : Clock
deriving DecidableEq, Repr

structure Outcome where
  origin : Origin
  result : Result
  detail : Nat
  stamp : Clock
deriving DecidableEq, Repr

inductive Removal where
  | normal
  | unannounced
deriving DecidableEq, Repr

structure BayRecord where
  state : BayState
  /-- DET_x as last seen: CLOSED -/
  contact : Bool
  removal : Option Timer
  settle : Option Timer
  /-- the lock is ENERGIZED (LOCK_x asserted) -/
  lock : Bool
  window : Option Timer
  /-- the window has ended while the contact was open (R60) -/
  endDeferred : Bool
  prepare : Option Timer
  request : Option Request
  outcome : Option Outcome
  lastRemoval : Option Removal
  glitches : Nat
  /-- the debounced button is PRESSED -/
  pressed : Bool
  /-- BTN_x as last seen: down -/
  buttonLine : Bool
  debounce : Option Timer
deriving DecidableEq, Repr

structure Bayc where
  bayA : BayRecord
  bayB : BayRecord
  /-- the release window setting, s -/
  window : Nat
deriving DecidableEq, Repr

/-! ### BUDGET (sections 4.1 to 4.5) -/

inductive EntryKind where
  | lockA
  | lockB
  | backlight
  | charger
  | host
deriving DecidableEq, Repr

inductive EntryState where
  | inactive
  | granted
  | shed
deriving DecidableEq, Repr

structure Entry where
  kind : EntryKind
  priority : Nat
  request : Nat
  floor : Nat
  grant : Nat
  state : EntryState
deriving DecidableEq, Repr

inductive Token where
  | free
  | backlight
  | charger
  | handover
deriving DecidableEq, Repr

/-- The projection record kept while a bay is PREPARING: the bay, and the capacity and base load last accepted. -/
structure Projection where
  bay : Bay
  capacity : Nat
  base : Nat
deriving DecidableEq, Repr

structure Budget where
  capacity : Nat
  margin : Nat
  swapMargin : Nat
  base : Nat
  headroom : Nat
  /-- the twelve entries, in index order -/
  entries : List Entry
  token : Token
  waiting : Bool
  projection : Option Projection
  /-- the projected capacity and the predicted load of the last test (R78) -/
  projCapacity : Nat
  predicted : Nat
  /-- the model's own: the capacity set of the last computation (R65), against which R73's change of the preferred set is seen -/
  capSet : SourceSet
deriving DecidableEq, Repr

/-! ### CHG (section 5.1) -/

inductive ChargerState where
  | idle
  | charging
  | paused
deriving DecidableEq, Repr

inductive PauseReason where
  | budget
  | thermal
deriving DecidableEq, Repr

inductive SettleKind where
  | rising
  | falling
deriving DecidableEq, Repr

structure RateSettle where
  kind : SettleKind
  timer : Timer
deriving DecidableEq, Repr

structure Charger where
  state : ChargerState
  bay : Option Bay
  pause : Option PauseReason
  /-- the rate is FAST -/
  fast : Bool
  settle : Option RateSettle
  claim : Bool
  barred : Option Bay
  factor : Nat
  request : Nat
  /-- CHG_SET, the commanded power -/
  set : Nat
  /-- CHG_EN -/
  en : Bool
  /-- CHG_SEL -/
  sel : Bay
  enabled : Bool
  fastAllowed : Bool
  stdRate : Nat
  fastRate : Nat
  lastGrant : Nat
  lastState : EntryState
deriving DecidableEq, Repr

/-! ### THERM (section 6.1) -/

structure Zone where
  temp : Option Int
  stamp : Clock
  t1 : Int
  t2 : Int
  t3 : Int
  hyst : Nat
  level : Nat
  fault : Bool
  /-- forced LOST (pack zones, R100) -/
  forced : Bool
deriving DecidableEq, Repr

inductive ZoneName where
  | panel
  | charger
  | enclosure
  | bayA
  | bayB
deriving DecidableEq, Repr

structure Therm where
  panel : Zone
  charger : Zone
  enclosure : Zone
  bayA : Zone
  bayB : Zone
deriving DecidableEq, Repr

/-! ### ALS (section 7.1) -/

inductive Cycle where
  | starting
  | integrating
  | reading
  | waiting
deriving DecidableEq, Repr

structure Als where
  running : Bool
  cycle : Option Cycle
  /-- the idle transaction is on LS (R118) -/
  idling : Bool
  integration : Option Timer
  wait : Option Timer
  gain : Nat
  c : Nat
  i : Nat
  raw : Nat
  f : Nat
  fault : Bool
  faultTimer : Option Timer
  completion : Option Clock
  discarded : Bool
  rejection : Nat
  rise : Nat
  fall : Nat
deriving DecidableEq, Repr

/-! ### BLD (chapter 8) -/

structure CurvePoint where
  lux : Nat
  nits : Nat
deriving DecidableEq, Repr

inductive BacklightMode where
  | auto
  | manual
  | off
deriving DecidableEq, Repr

structure Bld where
  power : Nat
  nFull : Nat
  nNorm : Nat
  dMin : Nat
  riseStep : Nat
  fallStep : Nat
  curve : List CurvePoint
  mode : BacklightMode
  manual : Nat
  offset : Int
  f : Nat
  factor : Nat
  lastGrant : Nat
  lastState : EntryState
  token : Token
  claim : Bool
  release : Option Timer
  /-- the token release delay, s -/
  delay : Nat
  curveNits : Nat
  target : Nat
  requested : Nat
  demand : Nat
  capped : Nat
  thermalCap : Nat
  boostCap : Nat
  budgetCap : Nat
  ceiling : Nat
  /-- the present duty, which BL_PWM carries; BL_EN is asserted while it is above 0 (R132) -/
  present : Nat
  request : Nat
  floor : Nat
deriving DecidableEq, Repr

/-! ### MOT and PARK (chapter 9) -/

inductive Detector where
  | idle
  | candidate
  | falling
  | impact
  | settle
deriving DecidableEq, Repr

inductive CandOrigin where
  | idle
  | settle
deriving DecidableEq, Repr

structure Sample where
  x : Int
  y : Int
  z : Int
  seq : Byte
  m2 : Nat
deriving DecidableEq, Repr

inductive ImpactKind where
  | shock
  | drop
  | fallNoImpact
deriving DecidableEq, Repr

inductive Axis where
  | x
  | y
  | z
deriving DecidableEq, Repr

/-- Peak axis and sign; `negative` for X−, Y−, Z−. -/
structure PeakAxis where
  axis : Axis
  negative : Bool
deriving DecidableEq, Repr

/-- The impact window (R146). -/
structure Window where
  kind : ImpactKind
  elapsed : Nat
  peak2 : Nat
  axis : PeakAxis
  overs : Nat
  rebounds : Nat
  fall : Nat
deriving DecidableEq, Repr

/-- A finished impact or fall as MOT hands it to ICL; the fields a kind lacks are absent (R155). -/
structure Finished where
  kind : ImpactKind
  fall : Nat
  peak : Nat
  axis : Option PeakAxis
  overs : Nat
  rebounds : Nat
deriving DecidableEq, Repr

structure Motion where
  detector : Detector
  origin : Option CandOrigin
  last : Option Sample
  /-- the next accepted read counts with d = 1: the first after power-on reset or after a stall (R140) -/
  fresh : Bool
  candRun : Nat
  fall : Nat
  pendingNormal : Nat
  quiet : Nat
  window : Option Window
  stillness : Nat
  stalled : Bool
  missed : Nat
  stallTimer : Option Timer
  /-- a read transaction is on MS (R140) -/
  reading : Bool
  finished : Option Finished
  ffThreshold : Nat
  ffCount : Nat
  impThreshold : Nat
  parkOnShock : Bool
  autoRelease : Bool
deriving DecidableEq, Repr

inductive ParkState where
  | released
  | requested
  | parked
deriving DecidableEq, Repr

structure Park where
  state : ParkState
  timer : Option Timer
  latch : Bool
  /-- PARK_ACK as last seen: asserted -/
  ack : Bool
deriving DecidableEq, Repr

/-! ### ICL (chapter 10) -/

inductive ClassField where
  | peak
  | height
  | overCount
  | rebounds
  | fallSeen
deriving DecidableEq, Repr

structure ClassRule where
  enable : Bool
  field : ClassField
  value : Nat
  invert : Bool
  chain : Bool
  severity : Nat
deriving DecidableEq, Repr

structure Icl where
  rule0 : ClassRule
  rule1 : ClassRule
  rule2 : ClassRule
  rule3 : ClassRule
  nextSeq : BitVec 16
  /-- the written count W -/
  written : BitVec 8
  lost : Nat
deriving DecidableEq, Repr

/-! ### WALK, ATTN, PSD, the link (chapters 11 and 12) -/

inductive WalkerState where
  | stopped
  | running
  | waiting
deriving DecidableEq, Repr

/-- One entry of the resource table; a held one names its card's slot and keeps the tag of the walker's copy. -/
inductive Resource where
  | free
  | held (slot : BitVec 5) (tag : Half)
  | orphaned
deriving DecidableEq, Repr

inductive ResourceName where
  | bayA
  | bayB
  | park
deriving DecidableEq, Repr

structure Walker where
  state : WalkerState
  index : BitVec 5
  taken : Bool
  recheckTimer : Option Timer
  /-- CONTROL.RUN as last written -/
  run : Bool
  /-- CONTROL.RECHECK as installed, in 10 ms -/
  recheck : Nat
  bayA : Resource
  bayB : Resource
  park : Resource
deriving DecidableEq, Repr

structure Attn where
  bits : BitVec 15
  mask : BitVec 15
deriving DecidableEq, Repr

inductive Platform where
  | active
  | standby
  | off
deriving DecidableEq, Repr

structure Psd where
  platform : Platform
  /-- the combination of PS0 and PS1 last taken -/
  taken0 : Bool
  taken1 : Bool
  /-- PS0 and PS1 as last seen -/
  line0 : Bool
  line1 : Bool
  candidate : Option (Bool × Bool)
  timer : Option Timer
  /-- HRST# as last seen: low -/
  hrstLow : Bool
  hrstTimer : Option Timer
deriving DecidableEq, Repr

/-- A report between blocks that its receiver has not taken yet; each is taken within the step that made it. -/
inductive Report where
  /-- to PATH: a trigger of R15; `policy` where a SET_POWER_POLICY card caused it -/
  | evaluate (policy : Bool)
  /-- to PATH: the loss of a source by its bay (R18) -/
  | sourceLost (bay : Bay)
  /-- to BUDGET: a cause of R73 -/
  | recompute
  /-- to BLD: a token change (R136) -/
  | derive
  /-- to BAYC: a switch, charging bay or lock grant has changed (R54) -/
  | bayTest (bay : Bay)
  /-- to BAYC: a lock grant (R74) -/
  | lockGrant (bay : Bay) (grant : Nat)
deriving DecidableEq, Repr

structure State where
  /-- the commands that wait, first in, first out -/
  pending : List Instr
  clock : Clock
  seconds : Clock
  smon : Smon
  path : Path
  glu : Glu
  bayc : Bayc
  budget : Budget
  chg : Charger
  therm : Therm
  als : Als
  bld : Bld
  mot : Motion
  park : Park
  icl : Icl
  walk : Walker
  attn : Attn
  psd : Psd
  /-- the exchange memory: the cells that do not read as `Mem.background`, addresses rising -/
  mem : List Host.Cell
  /-- the data bytes that the last link transfer returned on MISO -/
  miso : List Byte
  /-- the model's own: reports not yet taken; empty between steps (log entry 6) -/
  reports : List Report
  /-- the model's own: the turn counter of the free values (log entries 3 and 4) -/
  turn : Nat
deriving DecidableEq, Repr

/-! ### Values after power-on reset -/

/-- R1. -/
def SourceEntry.reset (code : Nat) : SourceEntry :=
  { presence := .absent, closed := false, mv := 0, ma := 0, above := false, tripHigh := true, tripCode := code, limit := 0 }

/-- R1. -/
def Smon.reset : Smon :=
  { inlet := .reset 20, packA := .reset 2, packB := .reset 2, settle := none, adapter := none, override := 0 }

/-- The empty set of sources. -/
def SourceSet.empty : SourceSet := ⟨false, false, false⟩

/-- R12, R17, R21, R24. -/
def Path.reset : Path :=
  { mode := .steady, transfer := none, holds := ⟨false, false, false⟩, postImpact := none, discharge := .sequential,
    reserve := 10, measured := 0 }

/-- R25. -/
def PackRecord.reset : PackRecord :=
  { link := .none, identity := none, snapshot := none, failureRun := 0, suspect := false, forcedPending := false, op := none,
    identWaiting := false, interval := none }

/-- R25. -/
def Glu.reset : Glu := { packA := .reset, packB := .reset, pollInterval := 1000, retryLimit := 3 }

/-- R42, before the contact scan. -/
def BayRecord.reset : BayRecord :=
  { state := .empty, contact := false, removal := none, settle := none, lock := false, window := none, endDeferred := false,
    prepare := none, request := none, outcome := none, lastRemoval := none, glitches := 0, pressed := false,
    buttonLine := false, debounce := none }

/-- R42. -/
def Bayc.reset : Bayc := { bayA := .reset, bayB := .reset, window := 20 }

/-- R68. -/
def Entry.reset (kind : EntryKind) (priority : Nat) : Entry :=
  { kind, priority, request := 0, floor := 0, grant := 0, state := .inactive }

/-- R68, R82, section 4.1. -/
def Budget.reset : Budget :=
  { capacity := 0, margin := 10, swapMargin := 2000, base := 0, headroom := 0,
    entries := [.reset .lockA 7, .reset .lockB 7, .reset .backlight 7, .reset .charger 3,
      .reset .host 0, .reset .host 0, .reset .host 0, .reset .host 0, .reset .host 0, .reset .host 0, .reset .host 0,
      .reset .host 0],
    token := .free, waiting := false, projection := none, projCapacity := 0, predicted := 0, capSet := .empty }

/-- R85, section 5.1. -/
def Charger.reset : Charger :=
  { state := .idle, bay := none, pause := none, fast := false, settle := none, claim := false, barred := none, factor := 100,
    request := 0, set := 0, en := false, sel := .a, enabled := true, fastAllowed := true, stdRate := 25000,
    fastRate := 45000, lastGrant := 0, lastState := .inactive }

/-- R97. -/
def Zone.reset (t1 t2 t3 : Int) : Zone :=
  { temp := none, stamp := 0, t1, t2, t3, hyst := 30, level := 0, fault := false, forced := false }

/-- R103. -/
def Therm.reset : Therm :=
  { panel := .reset 550 650 750, charger := .reset 600 700 850, enclosure := .reset 450 550 650, bayA := .reset 450 550 600,
    bayB := .reset 450 550 600 }

/-- R109, section 7.1. -/
def Als.reset : Als :=
  { running := false, cycle := none, idling := false, integration := none, wait := none, gain := 8, c := 0, i := 0, raw := 0,
    f := 0, fault := false, faultTimer := none, completion := none, discarded := false, rejection := 160, rise := 8,
    fall := 2 }

/-- Section 8.2. -/
def defaultCurve : List CurvePoint :=
  [⟨0, 40⟩, ⟨50, 80⟩, ⟨500, 200⟩, ⟨5000, 400⟩, ⟨20000, 500⟩, ⟨60000, 900⟩, ⟨100000, 1000⟩]

/-- R121, R123, R124, R126, R132 to R135. The figures that no derivation has formed yet are 0 (log entry 2). -/
def Bld.reset : Bld :=
  { power := 9000, nFull := 1000, nNorm := 500, dMin := 8, riseStep := 16, fallStep := 8, curve := defaultCurve, mode := .auto,
    manual := 300, offset := 0, f := 0, factor := 100, lastGrant := 0, lastState := .inactive, token := .free, claim := false,
    release := none, delay := 30, curveNits := 0, target := 0, requested := 0, demand := 0, capped := 0, thermalCap := 0,
    boostCap := 0, budgetCap := 0, ceiling := 0, present := 0, request := 0, floor := 0 }

/-- R139, section 9.1. -/
def Motion.reset : Motion :=
  { detector := .idle, origin := none, last := none, fresh := true, candRun := 0, fall := 0, pendingNormal := 0, quiet := 0,
    window := none, stillness := 0, stalled := false, missed := 0, stallTimer := none, reading := false, finished := none,
    ffThreshold := 350, ffCount := 64, impThreshold := 3000, parkOnShock := true, autoRelease := true }

/-- R150. -/
def Park.reset : Park := { state := .released, timer := none, latch := false, ack := false }

/-- R159, R165. -/
def Icl.reset : Icl :=
  { rule0 := ⟨true, .peak, 6000, false, false, 1⟩, rule1 := ⟨true, .height, 500, false, false, 2⟩,
    rule2 := ⟨true, .peak, 12000, false, true, 3⟩, rule3 := ⟨false, .peak, 0, false, false, 0⟩, nextSeq := 1, written := 0,
    lost := 0 }

/-- R171, R169. -/
def Walker.reset : Walker :=
  { state := .stopped, index := 0, taken := false, recheckTimer := none, run := false, recheck := 0, bayA := .free,
    bayB := .free, park := .free }

/-- R180. -/
def Psd.reset : Psd :=
  { platform := .off, taken0 := false, taken1 := false, line0 := false, line1 := false, candidate := none, timer := none,
    hrstLow := false, hrstTimer := none }

/-- The part after steps 1 and 2 of the power-on reset (R182): every setting at its default, every block at the values its
chapter gives, nothing read from a pin yet. Steps 3 to 5 are the POWER_ON_RESET command's (log entry 5). -/
def State.reset : State :=
  { pending := [], clock := 0, seconds := 0, smon := .reset, path := .reset, glu := .reset, bayc := .reset, budget := .reset,
    chg := .reset, therm := .reset, als := .reset, bld := .reset, mot := .reset, park := .reset, icl := .reset,
    walk := .reset, attn := ⟨0, 0⟩, psd := .reset, mem := [], miso := [], reports := [], turn := 0 }

end Sys2Proof.Machine
end

