-- ==== Sys2Proof/Machine/Bytes.lean ====
section
/-! DEFINITION. How the part writes numbers, enumerated fields and sets into bytes (R184), and the small arithmetic that
several chapters share: nearer-end clamps, rounding up, truncation toward zero, the integer root. -/

namespace Sys2Proof.Machine

/-! ### Numbers (R184: little-endian, two's complement) -/

/-- A one-byte field. -/
def u8 (n : Nat) : List Byte := [BitVec.ofNat 8 n]

/-- A two-byte unsigned field, low byte first. -/
def u16 (n : Nat) : List Byte := [BitVec.ofNat 8 n, BitVec.ofNat 8 (n / 256)]

/-- A four-byte unsigned field, low byte first. -/
def u32 (n : Nat) : List Byte :=
  [BitVec.ofNat 8 n, BitVec.ofNat 8 (n / 256), BitVec.ofNat 8 (n / 65536), BitVec.ofNat 8 (n / 16777216)]

/-- A two-byte signed field, low byte first. -/
def i16 (z : Int) : List Byte := u16 (z % 65536).toNat

/-- `n` unassigned bytes, which read 0 (R184). -/
def pad (n : Nat) : List Byte := List.replicate n 0

/-- A yes/no field (R184). -/
def yesNo (b : Bool) : List Byte := u8 b.toNat

/-- An absent enumerated field has code 0 (R184). -/
def optCode {α : Type} (code : α → Nat) : Option α → List Byte
  | none => u8 0
  | some x => u8 (code x)

/-- An absent numeric field reads 0 (R184). -/
def orZero (o : Option Nat) : Nat := o.getD 0

/-- A set of up to four members, member k in bit k (R184). -/
def setBits (b0 b1 b2 b3 : Bool) : Nat := b0.toNat + 2 * b1.toNat + 4 * b2.toNat + 8 * b3.toNat

/-- The number that a little-endian run of bytes spells. -/
def fromLE : List Byte → Nat
  | [] => 0
  | b :: bs => b.toNat + 256 * fromLE bs

/-- The signed reading of a 16-bit number (R184). -/
def signed16 (n : Nat) : Int := if n < 32768 then n else (n : Int) - 65536

/-! ### Arithmetic -/

/-- A scalar outside its range is taken at the nearer end (R174). -/
def clampNat (lo hi n : Nat) : Nat := if n < lo then lo else if hi < n then hi else n

/-- As `clampNat`, for signed scalars. -/
def clampInt (lo hi z : Int) : Int := if z < lo then lo else if hi < z then hi else z

/-- Division rounding up (R128). -/
def ceilDiv (n d : Nat) : Nat := (n + d - 1) / d

/-- floor(n × percent / 100). -/
def percent (n p : Nat) : Nat := n * p / 100

/-- floor(sqrt n) for n below 4^k, bit by bit (R146 takes the root of the peak). -/
def isqrtBits (n : Nat) : Nat → Nat → Nat
  | 0, r => r
  | k + 1, r => if (r + 2 ^ k) * (r + 2 ^ k) ≤ n then isqrtBits n k (r + 2 ^ k) else isqrtBits n k r

/-- The integer root of m², which is at most 768,000,000 and so below 4^15 (R142). -/
def isqrt (n : Nat) : Nat := isqrtBits n 15 0

/-- d = (new − last) mod 256 (R140). -/
def seqDiff (new last : Byte) : Nat := (new - last).toNat

/-! ### Codes of the enumerated fields (R184) -/

def Presence.code : Presence → Nat
  | .absent => 1
  | .settling => 2
  | .present => 3

/-- The two-valued fields of R184, OPEN/CLOSED, BELOW/ABOVE, LOW/HIGH and the like: 1 for the first, 2 for the second. -/
def twoCode (second : Bool) : Nat := if second then 2 else 1

def Source.code : Source → Nat
  | .inlet => 1
  | .packA => 2
  | .packB => 3

def Bay.code : Bay → Nat
  | .a => 1
  | .b => 2

def AdapterClass.code : AdapterClass → Nat
  | .mw45 => 1
  | .mw65 => 2
  | .mw90 => 3
  | .mw130 => 4
  | .unknown => 5

def PathMode.code : PathMode → Nat
  | .steady => 1
  | .making => 2
  | .paused => 3
  | .brownout => 4

def Reason.code : Reason → Nat
  | .inReturn => 1
  | .sequential => 2
  | .policy => 3
  | .releaseA => 4
  | .releaseB => 5

def DischargeMode.code : DischargeMode → Nat
  | .parallel => 1
  | .sequential => 2

def Link.code : Link → Nat
  | .none => 1
  | .ident => 2
  | .online => 3
  | .degraded => 4
  | .lost => 5

def BayState.code : BayState → Nat
  | .empty => 1
  | .settling => 2
  | .identifying => 3
  | .seated => 4
  | .preparing => 5
  | .released => 6
  | .unusable => 7

def Removal.code : Removal → Nat
  | .normal => 1
  | .unannounced => 2

def Origin.code : Origin → Nat
  | .button => 1
  | .card _ => 2

/-- The slot index of a card's request; 0 for a button's. -/
def Origin.slot : Origin → Nat
  | .button => 0
  | .card n => n.toNat

def ChargerState.code : ChargerState → Nat
  | .idle => 1
  | .charging => 2
  | .paused => 3

def PauseReason.code : PauseReason → Nat
  | .budget => 1
  | .thermal => 2

def SettleKind.code : SettleKind → Nat
  | .rising => 1
  | .falling => 2

def Cycle.code : Cycle → Nat
  | .starting => 1
  | .integrating => 2
  | .reading => 3
  | .waiting => 4

def BacklightMode.code : BacklightMode → Nat
  | .auto => 1
  | .manual => 2
  | .off => 3

def Token.code : Token → Nat
  | .free => 1
  | .backlight => 2
  | .charger => 3
  | .handover => 4

def EntryKind.code : EntryKind → Nat
  | .lockA => 1
  | .lockB => 2
  | .backlight => 3
  | .charger => 4
  | .host => 5

def EntryState.code : EntryState → Nat
  | .inactive => 1
  | .granted => 2
  | .shed => 3

def Detector.code : Detector → Nat
  | .idle => 1
  | .candidate => 2
  | .falling => 3
  | .impact => 4
  | .settle => 5

def CandOrigin.code : CandOrigin → Nat
  | .idle => 1
  | .settle => 2

def ParkState.code : ParkState → Nat
  | .released => 1
  | .requested => 2
  | .parked => 3

def ImpactKind.code : ImpactKind → Nat
  | .shock => 1
  | .drop => 2
  | .fallNoImpact => 3

/-- X+, X−, Y+, Y−, Z+, Z−. -/
def PeakAxis.code (p : PeakAxis) : Nat :=
  (match p.axis with
    | .x => 1
    | .y => 3
    | .z => 5) + p.negative.toNat

def ClassField.code : ClassField → Nat
  | .peak => 1
  | .height => 2
  | .overCount => 3
  | .rebounds => 4
  | .fallSeen => 5

def WalkerState.code : WalkerState → Nat
  | .stopped => 1
  | .running => 2
  | .waiting => 3

def Platform.code : Platform → Nat
  | .active => 1
  | .standby => 2
  | .off => 3

/-- The result codes of section 13.4. -/
def Result.code : Result → Nat
  | .ok => 0x00
  | .clamped => 0x01
  | .badParam => 0x10
  | .unknownKind => 0x11
  | .busy => 0x12
  | .refusedSource => 0x13
  | .refusedState => 0x14
  | .held => 0x15
  | .removed => 0x16
  | .aborted => 0x17
  | .timeout => 0x18
  | .linkFailed => 0x19

def SourceSet.code (s : SourceSet) : Nat := setBits s.inlet s.packA s.packB false

def HoldSet.code (h : HoldSet) : Nat := setBits h.freefall h.postImpact h.software false

def Alarms.code (a : Alarms) : Nat := setBits a.overTemp a.terminateDischarge a.terminateCharge a.full

/-! ### Codes read from card parameters; `none` is a structural error (R184) -/

def Source.ofCode : Nat → Option Source
  | 1 => some .inlet
  | 2 => some .packA
  | 3 => some .packB
  | _ => none

def Bay.ofCode : Nat → Option Bay
  | 1 => some .a
  | 2 => some .b
  | _ => none

/-- A two-valued field: `some false` for code 1, `some true` for code 2. -/
def twoOfCode : Nat → Option Bool
  | 1 => some false
  | 2 => some true
  | _ => none

/-- A yes/no byte of a card. -/
def yesNoOfCode : Nat → Option Bool
  | 0 => some false
  | 1 => some true
  | _ => none

def DischargeMode.ofCode : Nat → Option DischargeMode
  | 1 => some .parallel
  | 2 => some .sequential
  | _ => none

def BacklightMode.ofCode : Nat → Option BacklightMode
  | 1 => some .auto
  | 2 => some .manual
  | 3 => some .off
  | _ => none

def ZoneName.ofCode : Nat → Option ZoneName
  | 1 => some .panel
  | 2 => some .charger
  | 3 => some .enclosure
  | 4 => some .bayA
  | 5 => some .bayB
  | _ => none

def ClassField.ofCode : Nat → Option ClassField
  | 1 => some .peak
  | 2 => some .height
  | 3 => some .overCount
  | 4 => some .rebounds
  | 5 => some .fallSeen
  | _ => none

end Sys2Proof.Machine
end

