-- ==== Sys2Proof/Machine/Memory.lean ====
section
/-! DEFINITION. The 8,192-byte exchange memory (R166, R167, section 13.2) as a list of (address, byte) cells in one canonical
form: addresses strictly rising, all below 8,192, and no cell equal to what an unlisted address reads as. -/

namespace Sys2Proof.Machine

/-- The identity block's fixed values (section 13.2). -/
def identity : List Byte :=
  u16 0x0B5A ++ u16 0x0640 ++ u8 0x01 ++ u8 0x01 ++ u8 32 ++ u8 16 ++ u8 12

/-- What an address that no cell lists reads as: the identity block's fixed value there, and 0 elsewhere (R167, R182: after
power-on reset the whole memory except the identity block reads 0). -/
def Mem.background (a : Nat) : Byte := identity.getD a 0

/-- The byte a list of cells gives an address, where it lists one. -/
def Mem.find (a : Nat) : List Host.Cell → Option Byte
  | [] => none
  | c :: cs => if c.1 = a then some c.2 else Mem.find a cs

/-- A read of one byte. -/
def Mem.read (m : List Host.Cell) (a : Nat) : Byte := (Mem.find a m).getD (Mem.background a)

/-- The cells of a run of bytes from an address, without those that equal the background. -/
def Mem.cells (base : Nat) : List Byte → List Host.Cell
  | [] => []
  | b :: bs => if b = Mem.background base then Mem.cells (base + 1) bs else (base, b) :: Mem.cells (base + 1) bs

/-- A write of a run of bytes from an address onward. -/
def Mem.write (m : List Host.Cell) (base : Nat) (bs : List Byte) : List Host.Cell :=
  m.filter (fun c => Nat.blt c.1 base) ++ Mem.cells base bs ++ m.filter (fun c => Nat.ble (base + bs.length) c.1)

/-- Addresses strictly rising from `lo`, below the memory's end, none equal to the background. -/
def Mem.wfFrom (lo : Nat) : List Host.Cell → Bool
  | [] => true
  | c :: cs => Nat.ble lo c.1 && Nat.blt c.1 Config.memorySize && (c.2 != Mem.background c.1) && Mem.wfFrom (c.1 + 1) cs

/-- The canonical form. -/
def Mem.wf (m : List Host.Cell) : Bool := Mem.wfFrom 0 m

/-- Address bits above the 8 KiB range are ignored, and addresses wrap (R166). -/
def Mem.wrap (a : Nat) : Nat := a % Config.memorySize

/-- `n` bytes from an address onward, wrapping (R166). -/
def Mem.readRun (m : List Host.Cell) (a : Nat) : Nat → List Byte
  | 0 => []
  | n + 1 => Mem.read m (Mem.wrap a) :: Mem.readRun m (a + 1) n

/-- The addresses a host write is taken at: the read count Rd, the card slots and the host area (R167). -/
def Mem.hostWritable (a : Nat) : Bool :=
  a == 0x43 || (Nat.ble 0x800 a && Nat.blt a 0x1000) || (Nat.ble 0x1200 a && Nat.blt a 0x2000)

/-- A host write of one byte under the access rule of its region (R167). -/
def Mem.hostWrite (m : List Host.Cell) (a : Nat) (b : Byte) : List Host.Cell :=
  if Mem.hostWritable (Mem.wrap a) then Mem.write m (Mem.wrap a) [b] else m

/-- A host write of a run of bytes, each in its turn (R166). -/
def Mem.hostWriteRun (m : List Host.Cell) (a : Nat) : List Byte → List Host.Cell
  | [] => m
  | b :: bs => Mem.hostWriteRun (Mem.hostWrite m a b) (a + 1) bs

/-! ### The region map (section 13.2) -/

def Mem.control : Nat := 0x0040
def Mem.powerPage : Nat := 0x0100
def Mem.lightPage : Nat := 0x0200
def Mem.motionPage : Nat := 0x0280
def Mem.thermalPage : Nat := 0x0300
def Mem.budgetPage : Nat := 0x0380
def Mem.hostArea : Nat := 0x1200
/-- Slot n of the card list. -/
def Mem.slot (n : BitVec 5) : Nat := 0x0800 + 64 * n.toNat
/-- Slot k of the impact ring. -/
def Mem.ringSlot (k : Nat) : Nat := 0x1000 + 32 * (k % 16)

end Sys2Proof.Machine
end

