-- ==== Sys2Proof/Machine/Ops.lean ====
section
/-! DEFINITION. The named operations over the state that every block uses: records picked by bay or source, timers, the
exchange memory, the reports between blocks. -/

namespace Sys2Proof.Machine

/-! ### Records by bay, source and zone -/

/-- The source that pack x is. -/
def packSource : Bay → Source
  | .a => .packA
  | .b => .packB

/-- The other bay. -/
def otherBay : Bay → Bay
  | .a => .b
  | .b => .a

def State.bay (s : State) : Bay → BayRecord
  | .a => s.bayc.bayA
  | .b => s.bayc.bayB

def State.setBayRec (s : State) (x : Bay) (r : BayRecord) : State :=
  match x with
  | .a => { s with bayc := { s.bayc with bayA := r } }
  | .b => { s with bayc := { s.bayc with bayB := r } }

def State.modBay (s : State) (x : Bay) (f : BayRecord → BayRecord) : State := s.setBayRec x (f (s.bay x))

def State.pack (s : State) : Bay → PackRecord
  | .a => s.glu.packA
  | .b => s.glu.packB

def State.setPack (s : State) (x : Bay) (r : PackRecord) : State :=
  match x with
  | .a => { s with glu := { s.glu with packA := r } }
  | .b => { s with glu := { s.glu with packB := r } }

def State.modPack (s : State) (x : Bay) (f : PackRecord → PackRecord) : State := s.setPack x (f (s.pack x))

def State.source (s : State) : Source → SourceEntry
  | .inlet => s.smon.inlet
  | .packA => s.smon.packA
  | .packB => s.smon.packB

def State.setSource (s : State) (x : Source) (e : SourceEntry) : State :=
  match x with
  | .inlet => { s with smon := { s.smon with inlet := e } }
  | .packA => { s with smon := { s.smon with packA := e } }
  | .packB => { s with smon := { s.smon with packB := e } }

def State.modSource (s : State) (x : Source) (f : SourceEntry → SourceEntry) : State := s.setSource x (f (s.source x))

def Therm.zone (t : Therm) : ZoneName → Zone
  | .panel => t.panel
  | .charger => t.charger
  | .enclosure => t.enclosure
  | .bayA => t.bayA
  | .bayB => t.bayB

def Therm.setZone (t : Therm) (z : ZoneName) (r : Zone) : Therm :=
  match z with
  | .panel => { t with panel := r }
  | .charger => { t with charger := r }
  | .enclosure => { t with enclosure := r }
  | .bayA => { t with bayA := r }
  | .bayB => { t with bayB := r }

/-- The zone of a pack. -/
def bayZone : Bay → ZoneName
  | .a => .bayA
  | .b => .bayB

/-- The entry of a bay's lock in the budget table (section 4.2). -/
def lockIndex : Bay → Nat
  | .a => 0
  | .b => 1

/-- An entry of the budget table by index. -/
def Budget.entry (b : Budget) (i : Nat) : Entry := b.entries.getD i (.reset .host 0)

/-- Change one entry of the budget table. -/
def State.modEntry (s : State) (i : Nat) (f : Entry → Entry) : State :=
  { s with budget := { s.budget with entries := s.budget.entries.set i (f (s.budget.entry i)) } }

def Supply.get (v : Supply) : Source → Nat
  | .inlet => v.inlet
  | .packA => v.packA
  | .packB => v.packB

/-! ### Sets of sources -/

def SourceSet.has (t : SourceSet) : Source → Bool
  | .inlet => t.inlet
  | .packA => t.packA
  | .packB => t.packB

def SourceSet.union (t u : SourceSet) : SourceSet := ⟨t.inlet || u.inlet, t.packA || u.packA, t.packB || u.packB⟩

/-- The members of `t` that are not in `u`. -/
def SourceSet.less (t u : SourceSet) : SourceSet := ⟨t.inlet && !u.inlet, t.packA && !u.packA, t.packB && !u.packB⟩

def SourceSet.single (x : Source) : SourceSet :=
  match x with
  | .inlet => ⟨true, false, false⟩
  | .packA => ⟨false, true, false⟩
  | .packB => ⟨false, false, true⟩

def SourceSet.isEmpty (t : SourceSet) : Bool := !(t.inlet || t.packA || t.packB)

def HoldSet.isEmpty (h : HoldSet) : Bool := !(h.freefall || h.postImpact || h.software)

def HoldSet.has (h : HoldSet) : HoldKind → Bool
  | .freefall => h.freefall
  | .postImpact => h.postImpact
  | .software => h.software

def HoldSet.put (h : HoldSet) (k : HoldKind) (b : Bool) : HoldSet :=
  match k with
  | .freefall => { h with freefall := b }
  | .postImpact => { h with postImpact := b }
  | .software => { h with software := b }

/-- The feeding set: the sources whose switch is CLOSED (R8). -/
def State.feeding (s : State) : SourceSet := ⟨s.smon.inlet.closed, s.smon.packA.closed, s.smon.packB.closed⟩

/-- The platform state is ACTIVE (R180). -/
def State.active (s : State) : Bool := s.psd.platform == Platform.active

/-! ### Timers (section 6.4) -/

/-- A timer of `period` ms started now. -/
def State.timer (s : State) (period : Nat) : Timer := ⟨s.clock, period⟩

/-- The same timer, from its original start, with another period (R31, R134). -/
def Timer.withPeriod (period : Nat) (t : Timer) : Timer := { t with period }

/-- The ms that have passed since a timer's start. -/
def Timer.elapsed (t : Timer) (now : Clock) : Nat := (now - t.start).toNat

/-- The ms a timer still has to run. -/
def Timer.remaining (t : Timer) (now : Clock) : Nat := t.period - t.elapsed now

/-- The ms remaining, 0 while the timer does not run (section 13.5). -/
def remainingOf (now : Clock) : Option Timer → Nat
  | none => 0
  | some t => t.remaining now

/-! ### Memory -/

/-- The part writes a run of bytes. -/
def State.write (s : State) (base : Nat) (bs : List Byte) : State := { s with mem := Mem.write s.mem base bs }

/-- One byte of the exchange memory. -/
def State.byte (s : State) (a : Nat) : Byte := Mem.read s.mem a

/-- The number that `n` bytes from an address onward spell. -/
def State.num (s : State) (a n : Nat) : Nat := fromLE (Mem.readRun s.mem a n)

/-- One rewrite of a page: the update count grows by one before and by one after the contents are written, so it has grown by
two when the rewrite has ended (R23, R168). `body` is the page from offset 2 on. -/
def State.rewrite (s : State) (page : Nat) (body : List Byte) : State :=
  s.write page (u16 ((s.num page 2 + 2) % 65536) ++ body)

/-! ### Reports -/

/-- Add a report behind those that wait. -/
def State.report (s : State) (r : Report) : State := { s with reports := s.reports ++ [r] }

/-- Put a report before those that wait. -/
def State.reportFirst (s : State) (r : Report) : State := { s with reports := r :: s.reports }

/-- Take one value of the free order of two reports (log entry 3). -/
def State.nextTurn (s : State) : State := { s with turn := s.turn + 1 }

end Sys2Proof.Machine
end

