-- ==== Sys2Proof/Machine/Flags.lean ====
section
/-! DEFINITION. The attention word: its fifteen bits, edge and level, the conditions of the level bits, and the ATTN#
line (section 11.6, R178). -/

namespace Sys2Proof.Machine

/-- The fifteen attention bits, in bit order. -/
inductive AttnBit where
  | cardDone
  | listIdle
  | sourceChange
  | bayChange
  | releaseRefused
  | brownout
  | budgetShed
  | thermalChange
  | thermalCritical
  | impactLogged
  | parkLatched
  | parkTimeout
  | packLink
  | sensorFault
  | platformState
deriving DecidableEq, Repr

def AttnBit.index : AttnBit → Nat
  | .cardDone => 0
  | .listIdle => 1
  | .sourceChange => 2
  | .bayChange => 3
  | .releaseRefused => 4
  | .brownout => 5
  | .budgetShed => 6
  | .thermalChange => 7
  | .thermalCritical => 8
  | .impactLogged => 9
  | .parkLatched => 10
  | .parkTimeout => 11
  | .packLink => 12
  | .sensorFault => 13
  | .platformState => 14

/-- The word with one bit set. -/
def AttnBit.word (b : AttnBit) : BitVec 15 := BitVec.ofNat 15 (2 ^ b.index)

/-- An edge bit is raised, or a level bit is set as its condition begins (R178). -/
def State.raise (s : State) (b : AttnBit) : State := { s with attn := { s.attn with bits := s.attn.bits ||| b.word } }

/-- Raise a bit where a condition holds. -/
def State.raiseIf (s : State) (c : Bool) (b : AttnBit) : State := if c then s.raise b else s

/-- The bit is set. -/
def State.attnBit (s : State) (b : AttnBit) : Bool := s.attn.bits.getLsbD b.index

/-- Some zone satisfies a test. -/
def Therm.any (t : Therm) (p : Zone → Bool) : Bool := p t.panel || p t.charger || p t.enclosure || p t.bayA || p t.bayB

/-- Some zone is at level 3 (R106). -/
def Therm.critical (t : Therm) : Bool := t.any (fun z => z.level == 3)

/-- Some zone has its fault flag set (R106). -/
def Therm.faulted (t : Therm) : Bool := t.any (fun z => z.fault)

/-- The conditions of the level bits: the path in BROWNOUT (R20), a zone at level 3 (R106), the park latch (R151), a contributor
of SENSOR_FAULT (R106, R117, R141). An edge bit has none. -/
def State.condition (s : State) : AttnBit → Bool
  | .brownout => s.path.mode == .brownout
  | .thermalCritical => s.therm.critical
  | .parkLatched => s.park.latch
  | .sensorFault => s.therm.faulted || s.als.fault || s.mot.stalled
  | _ => false

/-- The word of the level bits whose condition holds. -/
def State.levelWord (s : State) : BitVec 15 :=
  (if s.condition .brownout then AttnBit.word .brownout else 0) |||
  (if s.condition .thermalCritical then AttnBit.word .thermalCritical else 0) |||
  (if s.condition .parkLatched then AttnBit.word .parkLatched else 0) |||
  (if s.condition .sensorFault then AttnBit.word .sensorFault else 0)

/-- A write to ATTN: each bit written 1 is cleared, but a level bit whose condition holds stays set (R178). -/
def State.attnClear (s : State) (v : Half) : State :=
  { s with attn := { s.attn with bits := s.attn.bits &&& ~~~(v.setWidth 15 &&& ~~~s.levelWord) } }

/-- ATTN# is asserted while ATTN AND MASK is nonzero (R178). -/
def State.attnLine (s : State) : Bool := (s.attn.bits &&& s.attn.mask) != 0

end Sys2Proof.Machine
end

