-- ==== Sys2Proof/Machine/Sources.lean ====
section
/-! DEFINITION. What PATH, CHG and BUDGET work out from the source table, the bay records and the pack records as they stand:
eligibility, last-resort candidates, the preferred set (section 1.2). Nothing here is stored. -/

namespace Sys2Proof.Machine

/-- The alarm set of the installed snapshot; empty without one (R37). -/
def PackRecord.alarms (p : PackRecord) : Alarms :=
  match p.snapshot with
  | some t => t.alarms
  | none => ⟨false, false, false, false⟩

/-- The relative charge; a pack without a snapshot counts as 50 % (R11, R13). -/
def PackRecord.charge (p : PackRecord) : Nat :=
  match p.snapshot with
  | some t => t.charge
  | none => 50

/-- The four conditions that R10 puts on a pack. -/
def State.packEligible (s : State) (x : Bay) : Bool :=
  (s.bay x).state == .seated && (s.pack x).link != .lost && !(s.pack x).suspect && !(s.pack x).alarms.terminateDischarge

/-- R10. A source is eligible when it is PRESENT, its comparator is ABOVE and, for a pack, the four conditions hold. -/
def State.eligible (s : State) (x : Source) : Bool :=
  (s.source x).presence == .present && (s.source x).above &&
    match x with
    | .inlet => true
    | .packA => s.packEligible .a
    | .packB => s.packEligible .b

/-- The bay states in which rescue may close a pack (R11, R19). -/
def BayState.closable (b : BayState) : Bool := b == .seated || b == .preparing || b == .identifying

/-- R11. A last-resort candidate. -/
def State.lastResort (s : State) (x : Bay) : Bool :=
  !s.eligible (packSource x) && (s.source (packSource x)).above && (s.bay x).state.closable &&
    !(s.pack x).alarms.terminateDischarge

/-- R13 with an eligibility given for each source: the preferred set. -/
def preferredFrom (mode : DischargeMode) (reserve : Nat) (eIn eA eB : Bool) (chA chB : Nat) : SourceSet :=
  if eIn then .single .inlet
  else match mode with
    | .parallel => ⟨false, eA, eB⟩
    | .sequential =>
      let aboveA := eA && Nat.blt reserve chA
      let aboveB := eB && Nat.blt reserve chB
      if aboveA && aboveB then (if chB < chA then .single .packB else .single .packA)
      else if aboveA then .single .packA
      else if aboveB then .single .packB
      else if eA && eB then (if chA < chB then .single .packB else .single .packA)
      else ⟨false, eA, eB⟩

/-- R13. The preferred set with one bay counted as not eligible, where a release is projected (R77). -/
def State.preferredWithout (s : State) (skip : Option Bay) : SourceSet :=
  preferredFrom s.path.discharge s.path.reserve (s.eligible .inlet)
    (s.eligible .packA && skip != some .a) (s.eligible .packB && skip != some .b)
    (s.pack .a).charge (s.pack .b).charge

/-- R13. The preferred set. -/
def State.preferred (s : State) : SourceSet := s.preferredWithout none

/-- R11, R19. The last-resort candidates, higher relative charge first, equal charges to A. -/
def State.lastResortOrder (s : State) : List Source :=
  let a := if s.lastResort .a then [Source.packA] else []
  let b := if s.lastResort .b then [Source.packB] else []
  if (s.pack .a).charge < (s.pack .b).charge then b ++ a else a ++ b

/-- The check that PATH makes before it closes a candidate (R19): its comparator reads ABOVE and, for a pack, its bay is still
SEATED, PREPARING or IDENTIFYING. -/
def State.passes (s : State) (x : Source) : Bool :=
  (s.source x).above &&
    match x with
    | .inlet => true
    | .packA => (s.bay .a).state.closable
    | .packB => (s.bay .b).state.closable

/-- The bay in PREPARING, if one is (R50 lets at most one be). -/
def State.preparing (s : State) : Option Bay :=
  if (s.bay .a).state == .preparing then some .a
  else if (s.bay .b).state == .preparing then some .b
  else none

/-- The threshold of a comparator, mV (R3). -/
def threshold (high : Bool) (code : Nat) : Nat := if high then 8000 + code * 400 else 5000 + code * 150

/-- What a source's comparator reads at a voltage: ABOVE or BELOW its threshold (R3). At the threshold itself the manual does
not say, and the value is free (log entry 4). -/
def State.comparator (s : State) (x : Source) (mv : Nat) : Bool :=
  let t := threshold (s.source x).tripHigh (s.source x).tripCode
  if t < mv then true else if mv < t then false else Config.atThreshold s.turn (Source.code x)

/-- The adapter class that ADP_ID gives (R6). -/
def adapterOf (mv : Nat) : AdapterClass :=
  if mv < 300 then .unknown
  else if mv < 900 then .mw45
  else if mv < 1500 then .mw65
  else if mv < 2100 then .mw90
  else if mv < 2700 then .mw130
  else .unknown

/-- The power of an adapter class, mW, UNKNOWN counted as 45,000 (R6). -/
def AdapterClass.power : AdapterClass → Nat
  | .mw45 => 45000
  | .mw65 => 65000
  | .mw90 => 90000
  | .mw130 => 130000
  | .unknown => Config.unknownAdapter

/-! ### Factors that the zone levels select (section 6.5) -/

/-- Pack discharge factor, % (R64). -/
def dischargeFactor : Nat → Nat
  | 0 => 100
  | 1 => 100
  | 2 => 75
  | _ => 50

/-- Charge factor from CHARGER, % (R89). -/
def chargeFactorCharger : Nat → Nat
  | 0 => 100
  | 1 => 50
  | 2 => 25
  | _ => 0

/-- Charge factor from ENCLOSURE, % (R89). -/
def chargeFactorEnclosure : Nat → Nat
  | 0 => 100
  | 1 => 75
  | 2 => 50
  | _ => 0

/-- Backlight factor from PANEL, % (R105). -/
def backlightFactorPanel : Nat → Nat
  | 0 => 100
  | 1 => 75
  | 2 => 50
  | _ => 25

/-- Backlight factor from ENCLOSURE, % (R105). -/
def backlightFactorEnclosure : Nat → Nat
  | 0 => 100
  | 1 => 100
  | 2 => 75
  | _ => 50

/-- The charge factor: the lower of the two (R89). -/
def Therm.chargeFactor (t : Therm) : Nat := min (chargeFactorCharger t.charger.level) (chargeFactorEnclosure t.enclosure.level)

/-- The backlight thermal factor: the lower of the two (R105). -/
def Therm.backlightFactor (t : Therm) : Nat :=
  min (backlightFactorPanel t.panel.level) (backlightFactorEnclosure t.enclosure.level)

end Sys2Proof.Machine
end

