-- ==== Sys2Proof/Machine/Pages.lean ====
section
/-! DEFINITION. The status pages and the control block (sections 13.2 and 13.5): what each holds, and its rewrite. A body starts
at offset 2 of its page, after the update count. -/

namespace Sys2Proof.Machine

/-! ### Power page -/

/-- One source entry, 20 bytes; the adapter class and the override are IN's alone. -/
def sourceImage (e : SourceEntry) (cls : List Byte) (override : Nat) : List Byte :=
  u8 e.presence.code ++ u8 (twoCode e.closed) ++ u8 (twoCode e.above) ++ u8 (twoCode e.tripHigh) ++ u8 e.tripCode ++ cls ++
    pad 2 ++ u16 e.mv ++ i16 e.ma ++ u32 e.limit ++ u32 override

/-- The age of a snapshot, held at 65,535 ms (R41). -/
def ageOf (now : Clock) : Option Snapshot → Nat
  | none => 0
  | some t => min 65535 (now - t.stamp).toNat

/-- An identification or a re-identifying poll is in flight (R41); one that still waits for the channel does not count here (DESIGN CHOICE,
log entry 43). -/
def PackRecord.identifying (p : PackRecord) : Bool :=
  match p.op with
  | some o => o.kind != .poll
  | none => false

/-- One pack record, 24 bytes. -/
def packImage (p : PackRecord) (now : Clock) : List Byte :=
  let id := p.identity.getD ⟨0, 0, 0⟩
  let t := p.snapshot.getD ⟨0, 0, 0, 0, 0, 0, 0, ⟨false, false, false, false⟩, 0⟩
  u8 p.link.code ++
    u8 (setBits p.identity.isSome p.snapshot.isSome p.suspect p.identifying + 16 * p.forcedPending.toNat) ++
    u8 p.failureRun ++ u8 id.cells ++ u16 id.serial ++ u16 id.design ++ u16 t.mv ++ i16 t.ma ++ i16 t.temp ++ u8 t.charge ++
    u8 (Alarms.code t.alarms) ++ u16 t.remaining ++ u16 t.full ++ u16 t.maxPower ++ u16 (ageOf now p.snapshot)

/-- One bay record, 28 bytes. -/
def bayImage (b : BayRecord) (now : Clock) : List Byte :=
  u8 b.state.code ++ u8 (twoCode b.contact) ++ u8 (twoCode b.lock) ++ u8 (twoCode b.pressed) ++
    optCode Removal.code b.lastRemoval ++ optCode (fun r => r.origin.code) b.request ++
    optCode (fun r => r.origin.slot) b.request ++ u8 b.glitches ++ u8 (remainingOf now b.removal) ++ pad 1 ++
    u16 (remainingOf now b.settle) ++ u16 (remainingOf now b.window) ++ pad 2 ++
    u32 (orZero (b.request.map (fun r => r.start.toNat))) ++ optCode (fun o => o.origin.code) b.outcome ++
    optCode (fun o => o.result.code) b.outcome ++ u8 (orZero (b.outcome.map (fun o => o.detail))) ++ pad 1 ++
    u32 (orZero (b.outcome.map (fun o => o.stamp.toNat)))

/-- The charge section. -/
def chargeImage (c : Charger) (now : Clock) : List Byte :=
  u8 c.state.code ++ optCode Bay.code c.bay ++ optCode PauseReason.code c.pause ++ u8 (twoCode c.fast) ++
    optCode (fun r => r.kind.code) c.settle ++ yesNo c.claim ++ optCode Bay.code c.barred ++ u8 c.factor ++
    yesNo c.enabled ++ yesNo c.fastAllowed ++ u16 (remainingOf now (c.settle.map (fun r => r.timer))) ++ u32 c.request ++
    u32 c.set ++ u32 c.lastGrant ++ u32 c.stdRate ++ u32 c.fastRate

/-- The power page's body at a time (R23, R41, R62, R96). -/
def powerImage (s : State) (now : Clock) : List Byte :=
  let t := s.path.transfer
  pad 2 ++
  sourceImage s.smon.inlet (optCode AdapterClass.code s.smon.adapter) s.smon.override ++
  sourceImage s.smon.packA (u8 0) 0 ++ sourceImage s.smon.packB (u8 0) 0 ++
  u8 s.feeding.code ++ u8 s.path.mode.code ++ u8 s.path.holds.code ++ u8 s.path.discharge.code ++ u8 s.path.reserve ++
  optCode (fun r => r.reason.code) t ++ optCode (fun r => r.incoming.code) t ++ optCode (fun r => r.outgoing.code) t ++
  u32 (orZero (t.map (fun r => r.start.toNat))) ++ u16 (remainingOf now s.path.postImpact) ++ pad 2 ++
  packImage s.glu.packA now ++ packImage s.glu.packB now ++
  bayImage s.bayc.bayA now ++ bayImage s.bayc.bayB now ++
  chargeImage s.chg now

/-- A rewrite of the power page. -/
def State.rewritePower (s : State) : State := s.rewrite Mem.powerPage (powerImage s s.clock)

/-- R23. The power page is rewritten after each change of its contents; a step that changes them rewrites it once, at its end
(log entry 8). `old` is the state before the step; both are shown at the present clock, so that a timer's mere running is no
change. -/
def publishPower (old s : State) : State :=
  if powerImage old s.clock = powerImage s s.clock then s else s.rewritePower

/-! ### Light and backlight page -/

/-- A curve point, packed: lux in bits 0 to 17, nits in bits 18 to 31 (R185). -/
def CurvePoint.packed (p : CurvePoint) : List Byte := u32 (p.lux % 262144 + 262144 * p.nits)

/-- The curve's points, 48 bytes; points beyond the count read 0. -/
def curveImage (c : List CurvePoint) : List Byte := c.flatMap CurvePoint.packed ++ pad (4 * (12 - c.length))

/-- The light section (R120). -/
def lightImage (s : State) : List Byte :=
  let l := s.als
  u8 (twoCode l.running) ++ optCode Cycle.code l.cycle ++ u8 l.gain ++ u8 (setBits l.fault l.discarded false false) ++
    u8 l.rejection ++ u8 l.rise ++ u8 l.fall ++ u8 s.bld.curve.length ++ pad 0 ++ u16 l.c ++ u16 l.i ++
    u16 (remainingOf s.clock l.faultTimer) ++ u32 l.raw ++ u32 l.f ++ u32 (orZero (l.completion.map BitVec.toNat))

/-- The normal-max duty D_norm (section 8.1). -/
def Bld.normDuty (b : Bld) : Nat := b.nNorm * 1023 / b.nFull

/-- A time in ms in units of 10 ms; whether a part of a unit rounds up is free (log entry 30). -/
def unitsOf (ms : Nat) : Nat := ms / 10 + (ms % 10 != 0 && Config.releaseRoundsUp ms).toNat

/-- The backlight section (R137). -/
def backlightImage (s : State) : List Byte :=
  let b := s.bld
  u16 b.power ++ u16 b.nFull ++ u16 b.nNorm ++ u16 b.normDuty ++ u8 b.dMin ++ u8 b.riseStep ++ u8 b.fallStep ++
    u8 b.mode.code ++ u16 b.manual ++ i16 b.offset ++ u32 b.f ++ u16 b.curveNits ++ u16 b.target ++ u16 b.requested ++
    u16 b.demand ++ u16 b.capped ++ u16 b.thermalCap ++ u16 b.boostCap ++ u16 b.budgetCap ++ u16 b.ceiling ++
    u16 b.present ++ u8 b.factor ++ u8 (setBits (b.present != 0) b.claim false false) ++ u8 b.token.code ++
    u8 b.lastState.code ++ u16 b.request ++ u16 b.floor ++ u16 b.lastGrant ++
    u16 (unitsOf (remainingOf s.clock b.release)) ++ curveImage b.curve

/-- A rewrite of the light and backlight page, both sections whole (R120). -/
def State.rewriteLight (s : State) : State := s.rewrite Mem.lightPage (lightImage s ++ backlightImage s)

/-! ### Motion page -/

/-- One classifier rule, 8 bytes. -/
def ruleImage (r : ClassRule) : List Byte :=
  yesNo r.enable ++ u8 r.field.code ++ yesNo r.invert ++ yesNo r.chain ++ u8 r.severity ++ pad 1 ++ u16 r.value

/-- The motion page's body (R153, R165). -/
def motionImage (s : State) : List Byte :=
  let m := s.mot
  let t := m.last.getD ⟨0, 0, 0, 0, 0⟩
  let w := m.window
  let f := m.finished
  u8 m.detector.code ++ optCode CandOrigin.code m.origin ++ yesNo m.stalled ++ u8 t.seq.toNat ++ u8 m.candRun ++ u8 m.quiet ++
    i16 t.x ++ i16 t.y ++ i16 t.z ++ u16 m.stillness ++ u32 t.m2 ++ u16 m.fall ++ u16 m.pendingNormal ++ u16 m.missed ++
    optCode (fun r => r.kind.code) w ++ optCode (fun r => r.axis.code) w ++
    u16 (orZero (w.map (fun r => r.elapsed))) ++ u16 (orZero (w.map (fun r => r.overs))) ++
    u16 (orZero (w.map (fun r => r.rebounds))) ++ u16 (orZero (w.map (fun r => r.fall))) ++
    u32 (orZero (w.map (fun r => r.peak2))) ++ u16 m.ffThreshold ++ u16 m.ffCount ++ u16 m.impThreshold ++
    yesNo m.parkOnShock ++ yesNo m.autoRelease ++ u8 s.park.state.code ++ yesNo s.park.latch ++ yesNo s.park.ack ++ pad 1 ++
    u16 (remainingOf s.clock s.park.timer) ++ pad 2 ++ optCode (fun r => r.kind.code) f ++
    optCode PeakAxis.code (f.bind (fun r => r.axis)) ++ u16 (orZero (f.map (fun r => r.fall))) ++
    u16 (orZero (f.map (fun r => r.peak))) ++ u16 (orZero (f.map (fun r => r.overs))) ++
    u16 (orZero (f.map (fun r => r.rebounds))) ++ pad 2 ++ u16 s.icl.nextSeq.toNat ++ pad 2 ++ ruleImage s.icl.rule0 ++
    ruleImage s.icl.rule1 ++ ruleImage s.icl.rule2 ++ ruleImage s.icl.rule3

/-- A rewrite of the motion page. -/
def State.rewriteMotion (s : State) : State := s.rewrite Mem.motionPage (motionImage s)

/-! ### Thermal page -/

/-- One zone, 20 bytes. -/
def zoneImage (z : Zone) : List Byte :=
  i16 (z.temp.getD 0) ++ u8 (setBits z.temp.isSome z.fault false false) ++ u8 z.forced.toNat ++ u8 z.level ++ pad 1 ++ i16 z.t1 ++
    i16 z.t2 ++ i16 z.t3 ++ u16 z.hyst ++ u32 (if z.temp.isSome then z.stamp.toNat else 0) ++ pad 2

/-- The thermal page's body (R107). -/
def thermalImage (t : Therm) : List Byte :=
  u8 t.backlightFactor ++ u8 (dischargeFactor t.bayA.level) ++ u8 (dischargeFactor t.bayB.level) ++ pad 3 ++ zoneImage t.panel ++
    zoneImage t.charger ++ zoneImage t.enclosure ++ zoneImage t.bayA ++ zoneImage t.bayB

/-- A rewrite of the thermal page. -/
def State.rewriteThermal (s : State) : State := s.rewrite Mem.thermalPage (thermalImage s.therm)

/-! ### Budget page -/

/-- An entry's kind, priority, state and grant, 8 bytes. -/
def entryImage (e : Entry) : List Byte := u8 e.kind.code ++ u8 e.priority ++ u8 e.state.code ++ pad 1 ++ u32 e.grant

/-- An entry's request and floor as given, 8 bytes. -/
def askImage (e : Entry) : List Byte := u32 e.request ++ u32 e.floor

/-- The budget page's body (R76). -/
def budgetImage (b : Budget) (measured : Nat) : List Byte :=
  u8 b.token.code ++ yesNo b.waiting ++ u8 b.margin ++ optCode (fun p => Bay.code p.bay) b.projection ++ pad 2 ++ u32 b.capacity ++
    u32 b.base ++ u32 b.headroom ++ u32 measured ++ u32 b.swapMargin ++ u32 b.projCapacity ++ u32 b.predicted ++
    b.entries.flatMap entryImage ++ b.entries.flatMap askImage

/-- A rewrite of the budget page. -/
def State.rewriteBudget (s : State) : State := s.rewrite Mem.budgetPage (budgetImage s.budget s.path.measured)

/-! ### Control block (R167) -/

/-- The walker state and index are written at each change. -/
def State.writeWalker (s : State) : State := s.write Mem.control (u8 s.walk.state.code ++ u8 s.walk.index.toNat)

/-- The platform state and the combination last taken (R180). -/
def State.writePlatform (s : State) : State :=
  s.write (Mem.control + 5) (u8 s.psd.platform.code ++ u8 (s.psd.taken0.toNat + 2 * s.psd.taken1.toNat))

/-- The ms clock. -/
def State.writeClock (s : State) : State := s.write (Mem.control + 8) (u32 s.clock.toNat)

/-- The seconds count. -/
def State.writeSeconds (s : State) : State := s.write (Mem.control + 12) (u32 s.seconds.toNat)

/-- The read count Rd, as the host last wrote it. -/
def State.readCount (s : State) : BitVec 8 := s.byte (Mem.control + 3)

end Sys2Proof.Machine
end

