-- ==== Sys2Proof/Machine/Charging.lean ====
section
/-! DEFINITION. CHG (chapter 5) and the boost token that BUDGET keeps (section 4.5): the candidate test, the evaluation, the
claim, the interlock, and BUDGET's answers to an ask and a release. -/

namespace Sys2Proof.Machine

/-! ### The boost token (R82 to R84) -/

/-- A change of the token state or of the waiting flag: the budget page is rewritten (R76) and the change is handed to BLD. CHG's
part of a hand-over is in the operations below. Without a change nothing happens. -/
def State.setToken (s : State) (t : Token) (waiting : Bool) : State :=
  if s.budget.token = t ∧ s.budget.waiting = waiting then s
  else ({ s with budget := { s.budget with token := t, waiting } }.rewriteBudget).report .derive

/-- A rate settle of 200 ms (R92). -/
def State.startSettle (s : State) (k : SettleKind) : State :=
  { s with chg := { s.chg with settle := some ⟨k, s.timer Config.rateSettle⟩ } }

/-- R83. CHG asks. -/
def State.chgAsk (s : State) : State :=
  match s.budget.token with
  | .free => (s.setToken .charger s.budget.waiting).startSettle .rising
  | .charger => s
  | .backlight => s.setToken .backlight true
  | .handover => s.setToken .handover true

/-- R84. CHG releases. -/
def State.chgRelease (s : State) : State :=
  match s.budget.token with
  | .charger => s.setToken .free false
  | .handover => s.setToken .backlight false
  | t => s.setToken t false

/-! ### Which pack is charged (R87, R88) -/

/-- R87. The pack of bay x is a candidate for charging. -/
def State.candidate (s : State) (x : Bay) : Bool :=
  s.smon.inlet.closed && s.chg.enabled && (s.bay x).state == .seated && !(s.source (packSource x)).closed &&
    s.chg.barred != some x && ((s.pack x).link == .online || (s.pack x).link == .degraded) && !(s.pack x).suspect &&
    (s.pack x).snapshot.isSome && !(s.pack x).alarms.full && !(s.pack x).alarms.terminateCharge &&
    Nat.blt (s.pack x).charge 100 && (s.therm.zone (bayZone x)).level == 0

/-- R88. The charging bay that an evaluation chooses. -/
def State.chooseBay (s : State) : Option Bay :=
  match s.chg.bay.filter s.candidate with
  | some x => some x
  | none =>
    if s.candidate .a && s.candidate .b then
      (if (s.pack .b).charge < (s.pack .a).charge then some .b else some .a)
    else if s.candidate .a then some .a
    else if s.candidate .b then some .b
    else none

/-! ### The evaluation (R89 to R92) -/

/-- R89. floor(rate power × charge factor / 100). -/
def Charger.factored (c : Charger) : Nat := percent (if c.fast then c.fastRate else c.stdRate) c.factor

/-- R91. CHG is charging bay x. -/
def Charger.charging (c : Charger) (x : Bay) : Bool := c.state == .charging && c.bay == some x

/-- The four steps of R90 over the charger's own record, with the bay of R88 given; the factor of R89 is the one that CHG holds (section
5.1, R102). The claim is that of R92; a rate that is FAST without a claim falls to STANDARD before the request is formed. -/
def Charger.settleState (c : Charger) (bay : Option Bay) : Charger :=
  let c := { c with fast := c.fast && c.fastAllowed }
  match bay with
  | none =>
    { c with state := .idle, bay := none, pause := none, fast := false, claim := false, request := 0, set := 0, en := false }
  | some x =>
    let c := { c with bay := some x, sel := x }
    if c.factored < Config.chargerFloor then
      { c with state := .paused, pause := some .thermal, fast := false, claim := false, request := 0, set := 0, en := false }
    else if c.lastGrant < Config.chargerFloor then
      { c with state := .paused, pause := some .budget, claim := c.fastAllowed, request := c.factored, set := 0, en := false }
    else
      { c with state := .charging, pause := none, claim := c.fastAllowed, request := c.factored,
               set := min c.factored c.lastGrant, en := true }

/-- R95. Two charger records agree in the state (with its reason), the bay, the request and the commanded power. -/
def Charger.agrees (c old : Charger) : Bool :=
  c.state == old.state && c.pause == old.pause && c.bay == old.bay && c.request == old.request && c.set == old.set

/-- R89, R70, R95. At an evaluation CHG sets its request, and BUDGET recomputes on each setting, also where the value is as before (log
entry 44); an evaluation that finds everything as it was in `old` sets none. The CHARGER floor is fixed. -/
def State.chgRequest (old : Charger) (s : State) : State :=
  if s.chg.agrees old then s
  else (s.modEntry 3 (fun e => { e with request := s.chg.request, floor := Config.chargerFloor })).report .recompute

/-- R92. The claim has begun or ended: CHG asks or releases. A claim that ends discards a rate settle. -/
def State.chgClaim (had : Bool) (s : State) : State :=
  if s.chg.claim && !had then s.chgAsk
  else if had && !s.chg.claim then { s with chg := { s.chg with settle := none } }.chgRelease
  else s

/-- R93. CHG reports to BAYC that it no longer charges a bay. -/
def State.chgStopped (old : Charger) (s : State) (x : Bay) : State :=
  if old.charging x && !s.chg.charging x then s.report (.bayTest x) else s

/-- R90, R95. An evaluation. -/
def State.chgEvaluate (s : State) : State :=
  let s1 := { s with chg := s.chg.settleState s.chooseBay }
  let s2 := State.chgRequest s.chg (State.chgClaim s.chg.claim s1)
  (State.chgStopped s.chg (State.chgStopped s.chg s2 .a) .b)

/-- R92. The token has become CHARGER for CHG by BLD's release: a FALLING settle is discarded, a RISING settle starts, CHG
evaluates. -/
def State.chgTokenArrived (s : State) : State := (s.startSettle .rising).chgEvaluate

/-- R92. The token has become HANDOVER: rate STANDARD at once, a RISING settle is discarded, a FALLING settle starts, CHG
evaluates. -/
def State.chgTokenTaken (s : State) : State :=
  ({ s with chg := { s.chg with fast := false } }.startSettle .falling).chgEvaluate

/-- R94. PATH's interlock request for a pack. -/
def State.chgInterlock (s : State) (x : Bay) : State := { s with chg := { s.chg with barred := some x } }.chgEvaluate

/-- R94, R95. PATH reports a change of the feeding set: the bar ends and CHG evaluates. -/
def State.chgFeeding (s : State) : State := { s with chg := { s.chg with barred := none } }.chgEvaluate

/-- R74, R95. BUDGET hands over the CHARGER grant and state. -/
def State.chgGrant (s : State) (grant : Nat) (state : EntryState) : State :=
  { s with chg := { s.chg with lastGrant := grant, lastState := state } }.chgEvaluate

/-- R92. The RISING settle has expired. -/
def State.chgRisen (s : State) : State :=
  { s with chg := { s.chg with settle := none, fast := s.chg.fast || s.budget.token == Token.charger } }.chgEvaluate

/-- R92, R84. The FALLING settle has expired: CHG reports it, the token becomes BACKLIGHT and charger waiting is set. -/
def State.chgFallen (s : State) : State :=
  let s := { s with chg := { s.chg with settle := none } }
  match s.budget.token with
  | .handover => s.setToken .backlight true
  | _ => s

/-! ### BLD's ask and release (R83, R84) -/

/-- R83. BLD asks. -/
def State.bldAsk (s : State) : State :=
  match s.budget.token with
  | .free => s.setToken .backlight s.budget.waiting
  | .charger => (s.setToken .handover s.budget.waiting).chgTokenTaken
  | .backlight => s
  | .handover => s

/-- R84. BLD's release passes the token on: to CHG where it waits, or where it charges with fast allowed when a HANDOVER is
released, which is where it holds its claim (DEDUCED, log entry 20); else the token is FREE. -/
def State.passToken (s : State) : State :=
  if s.budget.waiting || (s.budget.token == .handover && s.chg.claim) then (s.setToken .charger false).chgTokenArrived
  else s.setToken .free false

/-- R84. BLD releases. -/
def State.bldRelease (s : State) : State :=
  match s.budget.token with
  | .backlight => s.passToken
  | .handover => s.passToken
  | .free => s
  | .charger => s

end Sys2Proof.Machine
end

