-- ==== Sys2Proof/Machine/Backlight.lean ====
section
/-! DEFINITION. BLD (chapter 8): the curve, the figures of a derivation, the want for the token, the cut and the slew. -/

namespace Sys2Proof.Machine

/-- R122. n + (m − n) × (F − l) / (k − l), the quotient truncated toward zero. -/
def between (n m : Nat) (num den : Nat) : Nat := ((n : Int) + Int.tdiv (((m : Int) - n) * num) den).toNat

/-- R122. The curve luminance at a filtered lux. -/
def curveAt : List CurvePoint → Nat → Nat
  | [], _ => 0
  | [p], _ => p.nits
  | p :: q :: rest, f =>
    if f ≤ p.lux then p.nits
    else if f < q.lux then between p.nits q.nits (f - p.lux) (q.lux - p.lux)
    else curveAt (q :: rest) f

/-- The power of a duty, mW, rounded up (R128). -/
def dutyPower (p d : Nat) : Nat := ceilDiv (d * p) 1023

/-- R125. The target nits. -/
def Bld.targetNits (b : Bld) (curve : Nat) : Nat :=
  match b.mode with
  | .auto => (clampInt 0 b.nFull ((curve : Int) + b.offset)).toNat
  | .manual => min b.manual b.nFull
  | .off => 0

/-- The backlight is driven: the platform is ACTIVE and the mode is AUTO or MANUAL (R128, R133). -/
def Bld.lit (b : Bld) (active : Bool) : Bool := active && b.mode != .off

/-- R126. The requested duty; 0 in a derivation outside ACTIVE too (DEDUCED from R135, log entry 39). -/
def Bld.requestedDuty (b : Bld) (active : Bool) (target : Nat) : Nat :=
  if b.lit active then max b.dMin (target * 1023 / b.nFull) else 0

/-- R126. The demand duty after a derivation. -/
def Bld.demandDuty (b : Bld) (active : Bool) (requested : Nat) : Nat :=
  if b.lit active then max b.demand requested else 0

/-- Steps 1 to 3 of a derivation (R136): the target, the requested and the demand duty, the caps and the capped duty. The curve
is consulted in AUTO only; its luminance is kept as it was in the other modes (R122). -/
def Bld.figures (b : Bld) (active : Bool) : Bld :=
  let curve := match b.mode with
    | .auto => curveAt b.curve b.f
    | _ => b.curveNits
  let target := b.targetNits curve
  let requested := b.requestedDuty active target
  let demand := b.demandDuty active requested
  let thermalCap := percent 1023 b.factor
  let boostCap := if b.token = .backlight then 1023 else b.normDuty
  { b with curveNits := curve, target, requested, demand, thermalCap, boostCap,
           capped := min demand (min thermalCap boostCap) }

/-- R133. BLD wants the token: the capped target duty is above D_norm. -/
def Bld.wants (b : Bld) (active : Bool) : Bool := b.lit active && Nat.blt b.normDuty (min b.requested b.thermalCap)

/-- Step 4 of a derivation (R133, R134): a claim and an ask, the start or the discard of the release timer, or a release at once
in OFF and outside ACTIVE. -/
def State.bldWant (s : State) : State :=
  let b := s.bld
  let active := s.active
  if b.wants active then
    if b.claim then { s with bld := { b with release := none } }
    else { s with bld := { b with claim := true } }.bldAsk
  else if b.claim then
    if b.lit active then
      match b.release with
      | some _ => s
      | none => { s with bld := { b with release := some (s.timer (1000 * b.delay)) } }
    else { s with bld := { b with claim := false, release := none } }.bldRelease
  else s

/-- Step 5 of a derivation (R128): the request and the floor, handed to BUDGET where either differs from what it last
received. -/
def State.bldRequest (s : State) : State :=
  let b := s.bld
  let lit := b.lit s.active
  let request := if lit then dutyPower b.power b.capped else 0
  let floor := if lit then dutyPower b.power b.dMin else 0
  if b.request = request ∧ b.floor = floor then s
  else
    (State.modEntry { s with bld := { b with request, floor } } 2 (fun e => { e with request, floor })).report .recompute

/-- Steps 6 and 7 of a derivation (R129, R130): the budget cap, the ceiling and the cut. -/
def Bld.cut (b : Bld) : Bld :=
  let budgetCap := if b.lastState = .granted then b.lastGrant * 1023 / b.power else 0
  let ceiling := min b.capped budgetCap
  { b with budgetCap, ceiling, present := min b.present ceiling }

/-- R137. The page is rewritten where a figure of the backlight section has changed since `old`; both are taken at the present
clock, so that the release timer's mere running is no change. -/
def State.publishBacklight (old : Bld) (s : State) : State :=
  if backlightImage { s with bld := old } = backlightImage s then s else s.rewriteLight

/-- R136. A derivation, with the figure that its event installs first. -/
def State.derive (s : State) (install : Bld → Bld) : State :=
  let s1 := { s with bld := (install s.bld).figures s.active }
  let s2 := s1.bldWant.bldRequest
  State.publishBacklight s.bld { s2 with bld := s2.bld.cut }

/-- R136. The token change that BUDGET has handed over. -/
def State.deriveToken (s : State) : State := s.derive (fun b => { b with token := s.budget.token })

/-- R136. The BACKLIGHT grant and state that BUDGET has handed over. -/
def State.bldGrant (s : State) (grant : Nat) (state : EntryState) : State :=
  s.derive (fun b => { b with lastGrant := grant, lastState := state })

/-- R134. The release timer has run out: BLD releases and drops its claim; a derivation follows. -/
def State.bldTimeout (s : State) : State :=
  ({ s with bld := { s.bld with claim := false, release := none } }.bldRelease).derive id

/-- R134. A new token release delay, s. A running timer is measured against it from its start; where that time has already
passed, BLD releases at once. -/
def State.bldDelay (s : State) (delay : Nat) : State :=
  let s1 := { s with bld := { s.bld with delay, release := s.bld.release.map (Timer.withPeriod (1000 * delay)) } }
  match s1.bld.release with
  | some t => if 1000 * delay ≤ t.elapsed s.clock then s1.bldTimeout else s1.derive id
  | none => s1.derive id

/-- R131, step 1. The demand duty falls toward the requested duty by at most the fall step. -/
def Bld.demandStep (b : Bld) : Bld :=
  if b.requested < b.demand then { b with demand := max b.requested (b.demand - b.fallStep) } else b

/-- R131, step 2. The present duty rises toward the ceiling by at most the rise step; from 0 it rises to the larger of the rise
step and d_min. -/
def Bld.riseDuty (b : Bld) : Bld :=
  if b.present < b.ceiling then
    { b with present := min b.ceiling (if b.present = 0 then max b.riseStep b.dMin else b.present + b.riseStep) }
  else b

/-- R131, R137. A slew tick in ACTIVE: the demand step with its derivation, then the rise. The page is rewritten after the
derivation where it changed a figure, and after the tick where it moved the demand or the present duty. -/
def State.slew (s : State) : State :=
  let s1 := s.derive Bld.demandStep
  let s2 := { s1 with bld := s1.bld.riseDuty }
  if s2.bld.demand = s.bld.demand ∧ s2.bld.present = s.bld.present then s2 else s2.rewriteLight

end Sys2Proof.Machine
end

