-- ==== Sys2Proof/Machine/Thermal.lean ====
section
/-! DEFINITION. THERM (chapter 6): the level update, the thermistor sampling, the hand-overs for the pack zones, and what a
change of the zone table causes. -/

namespace Sys2Proof.Machine

/-- A temperature that a zone can show (section 6.1). -/
def tempOk (t : Int) : Bool := decide (-400 ≤ t) && decide (t ≤ 1250)

/-- The number of the three trips at or below a figure. -/
def Zone.count (z : Zone) (t : Int) : Nat :=
  (decide (z.t1 ≤ t)).toNat + (decide (z.t2 ≤ t)).toNat + (decide (z.t3 ≤ t)).toNat

/-- R101. The level after an update from temperature t. -/
def Zone.nextLevel (z : Zone) (t : Int) : Nat :=
  if z.level < z.count t then z.count t
  else if z.count (t + z.hyst) < z.level then z.count (t + z.hyst)
  else z.level

/-- A reading within range: it becomes the temperature, a fault ends and the level is updated (R98, R99 line 5). -/
def Zone.accept (z : Zone) (t : Int) (stamp : Clock) : Zone :=
  { z with temp := some t, stamp, fault := false, forced := false, level := z.nextLevel t }

/-- A reading out of range: fault, temperature absent, level 3 at once (R98, R99 line 4). -/
def Zone.failed (z : Zone) : Zone := { z with temp := none, stamp := 0, fault := true, forced := false, level := 3 }

/-- R98. One thermistor reading. -/
def Zone.sampled (z : Zone) (t : Int) (now : Clock) : Zone := if tempOk t then z.accept t now else z.failed

/-- R99 lines 1 and 3: nothing is known of the pack's temperature. -/
def Zone.unknown (z : Zone) : Zone := { z with temp := none, stamp := 0, fault := false, forced := false, level := 0 }

/-- What a forced zone shows: the last snapshot's temperature and stamp, where there is one (R99 line 2, R100; log entry 31). -/
def Zone.shows (z : Zone) (t : Option Snapshot) : Zone :=
  match t with
  | some t => { z with temp := some t.temp, stamp := t.stamp }
  | none => { z with temp := none, stamp := 0 }

/-- R100. The zone is forced LOST: level 2, fault clear. -/
def Zone.lost (z : Zone) (t : Option Snapshot) : Zone :=
  { z with forced := true, fault := false, level := 2 }.shows t

/-- R99, R100. A hand-over for a pack zone; `fresh` where it brings a new snapshot. A zone that is still forced after its link has
left LOST waits for a snapshot installed since (R100). -/
def Zone.handed (z : Zone) (p : PackRecord) (fresh : Bool) : Zone :=
  if p.link = .none then z.unknown
  else if p.link = .lost then z.lost p.snapshot
  else if z.forced && !fresh then z.lost p.snapshot
  else match p.snapshot with
    | none => z.unknown
    | some t => if tempOk t.temp then z.accept t.temp t.stamp else z.failed

/-! ### What a change of the zone table causes -/

/-- The zones whose level differs between two tables. -/
def Therm.moved (old new : Therm) : List ZoneName :=
  [ZoneName.panel, .charger, .enclosure, .bayA, .bayB].filter (fun z => (old.zone z).level != (new.zone z).level)

/-- R102, R105. BLD takes the backlight thermal factor of the levels handed so far. -/
def State.tellBld (s : State) (handed : Therm) : State := s.derive (fun b => { b with factor := handed.backlightFactor })

/-- R102, R89. CHG takes the charge factor of the levels handed so far, and evaluates. -/
def State.tellChg (s : State) (handed : Therm) : State :=
  { s with chg := { s.chg with factor := handed.chargeFactor } }.chgEvaluate

/-- R102. The change of one zone's level is handed to the readers of that zone; `handed` has the levels handed so far, this one among
them. BLD and CHG both read ENCLOSURE and neither waits for the other: the order is free (log entry 3), as the one that asks for the token
first may change what the other finds (R83). -/
def State.handLevel (s : State) (handed : Therm) : ZoneName → State
  | .panel => s.tellBld handed
  | .charger => s.tellChg handed
  | .enclosure =>
    if Config.order s.turn then (s.nextTurn.tellBld handed).tellChg handed else (s.nextTurn.tellChg handed).tellBld handed
  | .bayA => (s.report .recompute).chgEvaluate
  | .bayB => (s.report .recompute).chgEvaluate

/-- R106. The three attention bits, after the page. A level bit is set where its condition holds. -/
def State.thermalBits (s : State) (old : Therm) : State :=
  ((s.raiseIf (!(old.moved s.therm).isEmpty) .thermalChange).raiseIf s.therm.critical .thermalCritical).raiseIf
    s.therm.faulted .sensorFault

/-- R106, R107. An event has formed a new zone table: the page is rewritten and the bits are raised. -/
def State.thermShow (s : State) (t : Therm) : State := ({ s with therm := t }.rewriteThermal).thermalBits s.therm

/-- R106 to R108. A pack hand-over or a card has updated one zone: the page, the bits, and the change of its level, where there is one, is
handed on. -/
def State.zoneInstall (s : State) (z : ZoneName) (r : Zone) : State :=
  let t := s.therm.setZone z r
  if (s.therm.zone z).level = r.level then s.thermShow t else (s.thermShow t).handLevel t z

/-- R99. A hand-over from GLU for pack x. -/
def State.thermHand (s : State) (x : Bay) (fresh : Bool) : State :=
  s.zoneInstall (bayZone x) ((s.therm.zone (bayZone x)).handed (s.pack x) fresh)

/-- R98. The zone table after a sampling of the three thermistors. -/
def Therm.sampled (t : Therm) (panel charger enclosure : Int) (now : Clock) : Therm :=
  { t with
    panel := t.panel.sampled panel now
    charger := t.charger.sampled charger now
    enclosure := t.enclosure.sampled enclosure now }

/-- R104, after the checks: the settings are installed, and a zone with a temperature that is neither forced nor in fault is updated
from it. -/
def Zone.withTrips (z : Zone) (t1 t2 t3 : Int) (hyst : Nat) : Zone :=
  let z := { z with t1, t2, t3, hyst }
  if z.fault || z.forced then z
  else match z.temp with
    | some t => { z with level := z.nextLevel t }
    | none => z

end Sys2Proof.Machine
end

