-- ==== Sys2Proof/Machine/Returns.lean ====
section
/-! DEFINITION. The return of a card into its slot (R171) and the end of a long operation (R176). -/

namespace Sys2Proof.Machine

/-- Result fields of a card: bytes at offsets from the start of the slot (R185). -/
abbrev Fields := List (Nat × List Byte)

/-- The part writes result fields into a slot. -/
def State.writeFields (s : State) (slot : BitVec 5) : Fields → State
  | [] => s
  | f :: fs => State.writeFields (s.write (Mem.slot slot + f.1) f.2) slot fs

/-- The owner field of a slot: 0 OPEN, 1 POSTED, 2 ACTIVE (section 13.4). -/
def State.setOwner (s : State) (slot : BitVec 5) (owner : Nat) : State := s.write (Mem.slot slot) (u8 owner)

/-- R171. A return: the result code and the detail, the result fields, the tag of the walker's copy, the completion stamp, and last
the owner OPEN; then CARD_DONE. -/
def State.cardReturn (s : State) (slot : BitVec 5) (tag : Half) (r : Result) (detail : Nat) (fields : Fields) : State :=
  let s1 := (s.write (Mem.slot slot + 4) (u8 r.code ++ u8 detail)).writeFields slot fields
  ((s1.write (Mem.slot slot + 2) (u16 tag.toNat)).write (Mem.slot slot + 6) (u16 s.clock.toNat)).setOwner slot 0
    |>.raise .cardDone

/-- One entry of the resource table. -/
def Walker.resource (w : Walker) : ResourceName → Resource
  | .bayA => w.bayA
  | .bayB => w.bayB
  | .park => w.park

def State.setResource (s : State) (n : ResourceName) (r : Resource) : State :=
  match n with
  | .bayA => { s with walk := { s.walk with bayA := r } }
  | .bayB => { s with walk := { s.walk with bayB := r } }
  | .park => { s with walk := { s.walk with park := r } }

/-- The resource of a bay. -/
def bayResource : Bay → ResourceName
  | .a => .bayA
  | .b => .bayB

/-- R176. A long operation ends: a HELD entry has its card returned and becomes FREE, an ORPHANED one becomes FREE. -/
def State.complete (s : State) (n : ResourceName) (r : Result) (detail : Nat) (fields : Fields) : State :=
  match s.walk.resource n with
  | .held slot tag => (s.setResource n .free).cardReturn slot tag r detail fields
  | .orphaned => s.setResource n .free
  | .free => s

end Sys2Proof.Machine
end

