-- ==== Sys2Proof/Machine/Gauge.lean ====
section
/-! DEFINITION. GLU (chapter 2), first part: the polls, the forced polls, the SUSPECT mark and the hand-overs of a record. What an
identification does to the bay stands in Outcomes.lean. -/

namespace Sys2Proof.Machine

/-- R31. A pack is polled while its link is ONLINE, DEGRADED or LOST and its bay is SEATED, PREPARING or RELEASED. -/
def State.pollable (s : State) (x : Bay) : Bool :=
  ((s.pack x).link == .online || (s.pack x).link == .degraded || (s.pack x).link == .lost) &&
    ((s.bay x).state == .seated || (s.bay x).state == .preparing || (s.bay x).state == .released)

/-- A gauge operation at its start. -/
def GaugeOp.start (k : GaugeKind) : GaugeOp := { kind := k, gathered := [], failed := 0, marked := false }

/-- R31, R32, R36. A poll begins: a running interval timer is discarded and a pending forced poll is served. On a SUSPECT pack it is a
re-identifying poll. -/
def State.beginPoll (s : State) (x : Bay) : State :=
  s.modPack x (fun p =>
    { p with op := some (.start (if p.suspect then .reident else .poll)), interval := none, forcedPending := false })

/-- R33, R34. An identification begins; the interval timer is stopped while it runs. -/
def State.beginIdent (s : State) (x : Bay) (k : GaugeKind) : State :=
  s.modPack x (fun p => { p with op := some (.start k), interval := none, identWaiting := false })

/-- R32. A forced-poll request. -/
def State.forcedPoll (s : State) (x : Bay) : State :=
  match (s.pack x).op with
  | some _ => s.modPack x (fun p => { p with forcedPending := true })
  | none => if s.pollable x then s.beginPoll x else s

/-- R26, R40. A change of link state, or the reset of a record, is handed to PATH, BUDGET, THERM and CHG. -/
def State.handLink (s : State) (x : Bay) : State :=
  (((s.thermHand x false).chgEvaluate).report (.evaluate false)).report .recompute

/-- R29. A new snapshot is handed to PATH, BUDGET, THERM and CHG. -/
def State.handSnapshot (s : State) (x : Bay) : State :=
  (((s.thermHand x true).chgEvaluate).report (.evaluate false)).report .recompute

/-- R35. A change of the SUSPECT flag is handed to PATH and CHG. -/
def State.handSuspect (s : State) : State := s.chgEvaluate.report (.evaluate false)

/-- R35. A SUSPECT mark; on a record whose link is NONE it is dropped. An accepted mark is also a forced-poll request. A mark that
meets an identification or a re-identifying poll in flight survives its success. -/
def State.markSuspect (s : State) (x : Bay) : State :=
  if (s.pack x).link = .none then s
  else
    let was := (s.pack x).suspect
    let s1 := s.modPack x (fun p => { p with suspect := true, op := p.op.map (fun o : GaugeOp => { o with marked := true }) })
    (if was then s1 else s1.handSuspect).forcedPoll x

/-- R31, R32, R34. A poll has ended: an identification that waits for the channel starts; otherwise a pending forced poll begins;
otherwise the interval timer starts, where the pack is still polled. -/
def State.afterPoll (s : State) (x : Bay) : State :=
  if (s.pack x).identWaiting then s.beginIdent x .identCard
  else if (s.pack x).forcedPending && s.pollable x then s.beginPoll x
  else s.modPack x (fun p =>
    { p with forcedPending := false, interval := if s.pollable x then some (s.timer s.glu.pollInterval) else none })

/-- R28. The temperature of a gauge's reading in 0.1 K; above the range of the field the value is free (log entry 28). -/
def tempOf (v : Nat) : Int := if v ≤ 35499 then (v : Int) - 2732 else clampInt (-2732) 32767 (Config.gaugeTemp v)

/-- R28. The snapshot that eight values read give, stamped now. -/
def snapshotOf (v : List Nat) (alarms : Alarms) (now : Clock) : Snapshot :=
  let read (i : Nat) : Nat := v.getD i 0
  { mv := read 0
    ma := if read 1 = 32768 then 32767 else -signed16 (read 1)
    temp := tempOf (read 2)
    charge := min 100 (read 3)
    remaining := read 4
    full := read 5
    maxPower := read 6
    alarms
    stamp := now }

/-- R29. A poll succeeds. From another link state than ONLINE the change of link is handed over first, then the snapshot (log
entry 14). -/
def State.pollGood (s : State) (x : Bay) (t : Snapshot) : State :=
  let was := (s.pack x).link
  let s1 := s.modPack x (fun p => { p with op := none, snapshot := some t, failureRun := 0, link := .online })
  let s2 := s1.raiseIf (was == .lost) .packLink
  let s3 := if was = .online then s2 else s2.handLink x
  (s3.handSnapshot x).afterPoll x

/-- R26, R30. The link state after a failed poll, by the new failure run. -/
def failedLink (run : Nat) : Link := if run < 3 then .degraded else .lost

/-- R30. A poll fails. It is a poll completion for CHG. -/
def State.pollBad (s : State) (x : Bay) : State :=
  let was := (s.pack x).link
  let run := min 3 ((s.pack x).failureRun + 1)
  let link := if was = .lost then .lost else failedLink run
  let s1 := s.modPack x (fun p => { p with op := none, failureRun := run, link })
  let s2 := s1.raiseIf (link == Link.lost && was != Link.lost) .packLink
  (if link = was then s2.chgEvaluate else s2.handLink x).afterPoll x

/-- R40. Any operation on the channel is ended and the record takes its values after power-on reset. The identification of a card
that runs or waits is ended, and its card, if it has one, is returned REMOVED. -/
def State.gluReset (s : State) (x : Bay) : State :=
  let p := s.pack x
  let s1 := s.setPack x .reset
  let s2 := if p.op.any (fun o => o.kind == .identCard) || p.identWaiting then
      s1.complete (bayResource x) .removed 0 [(0x0A, u16 0), (0x0C, u8 0), (0x0E, u16 0)]
    else s1
  s2.handLink x

/-- R40. The record is emptied: link NONE, identity and snapshot absent, polling stopped. SUSPECT and the failure run are left as they
stand (log entry 26); a pending forced poll is kept where a card identification waits for the channel (R34). -/
def State.gluEmpty (s : State) (x : Bay) : State :=
  (s.modPack x (fun p =>
    { p with link := .none, identity := none, snapshot := none, op := none, interval := none,
             forcedPending := p.forcedPending && p.identWaiting })).handLink x

end Sys2Proof.Machine
end

