-- ==== Sys2Proof/Machine/Bays.lean ====
section
/-! DEFINITION. BAYC (chapter 3), first part: the change of a bay's state, the end of a release request, the completion of a release,
the end of a window. The requests themselves stand in Release.lean, because they need BUDGET's answers. -/

namespace Sys2Proof.Machine

/-- R7. The presence of a pack in a bay state. -/
def BayState.presence : BayState → Presence
  | .seated => .present
  | .preparing => .present
  | .empty => .absent
  | .settling => .absent
  | .identifying => .absent
  | .released => .absent
  | .unusable => .absent

/-- R7, R22. The pack's presence mirrors its bay; a change of presence raises SOURCE_CHANGE. -/
def State.mirror (s : State) (x : Bay) : State :=
  let p := (s.bay x).state.presence
  if (s.source (packSource x)).presence = p then s
  else (s.modSource (packSource x) (fun e => { e with presence := p })).raise .sourceChange

/-- A bay enters a state: the lock is ENERGIZED in RELEASED alone (R58), the presence is mirrored (R7), CHG evaluates (R95) and PATH is
told: an evaluation, or the loss of the source where the bay is EMPTY or UNUSABLE now (R18). -/
def State.enterBay (s : State) (x : Bay) (st : BayState) (announce : Bool) : State :=
  let s1 := (s.modBay x (fun b => { b with state := st, lock := st == .released })).mirror x
  (s1.raiseIf announce .bayChange).chgEvaluate.report
    (if st == .empty || st == .unusable then .sourceLost x else .evaluate false)

/-- R69. BAYC sets the request of LOCK_x; its floor equals it. -/
def State.lockAsk (s : State) (x : Bay) (mw : Nat) : State :=
  if (s.budget.entry (lockIndex x)).request = mw then s
  else (s.modEntry (lockIndex x) (fun e => { e with request := mw, floor := mw })).report .recompute

/-- The lock grant of a bay's budget entry is the lock's full power (R54). -/
def State.lockGranted (s : State) (x : Bay) : Bool := Nat.ble Config.lockPower (s.budget.entry (lockIndex x)).grant

/-- R53. A refused button request: its result is neither OK nor REMOVED. -/
def Result.refused (r : Result) : Bool := r != .ok && r != .removed

/-- R53. A request ends: the last request outcome is set; a button's refusal raises RELEASE_REFUSED, and a card's result goes to the
walker. The record of a release that is in PREPARING stays: a request refused meanwhile does not affect it (R50). -/
def State.endRequest (s : State) (x : Bay) (o : Origin) (r : Result) (detail : Nat) : State :=
  let s1 := s.modBay x (fun b => { b with outcome := some ⟨o, r, detail, s.clock⟩ })
  match o with
  | .button => s1.raiseIf r.refused .releaseRefused
  | .card _ => s1.complete (bayResource x) r detail []

/-- R53. The release in PREPARING ends with a result, if one is there: its record is made absent and the prepare limit timer is
discarded. -/
def State.endPreparing (s : State) (x : Bay) (r : Result) (detail : Nat) : State :=
  let s1 := s.modBay x (fun b => { b with prepare := none, request := none })
  match (s.bay x).request with
  | some q => s1.endRequest x q.origin r detail
  | none => s1

/-- R81. BUDGET removes the projection record of a bay and recomputes. -/
def State.dropProjection (s : State) (x : Bay) : State :=
  match s.budget.projection with
  | some p => if p.bay = x then { s with budget := { s.budget with projection := none } }.report .recompute else s
  | none => s

/-- R45, R57. BUDGET's part of a bay's leaving: the lock request becomes 0 and the projection of the bay is removed. -/
def State.dropClaims (s : State) (x : Bay) : State := (s.lockAsk x 0).dropProjection x

/-- R18, R45, R57. The leaving of bay x for `st` rescues its closed switch in the middle of a release, which has a lock request and a
projection: BUDGET's recompute and PATH's rescue both follow. -/
def State.rescuesRelease (s : State) (x : Bay) (st : BayState) : Bool :=
  (s.bay x).state == .preparing && (s.source (packSource x)).closed && (st == .empty || st == .unusable)

/-- R45, R57. A bay enters `st` and gives up its lock request and its projection. Where the pack of a release is lost with its switch
closed, no report waits for another (R45), and a recompute before PATH's rescue sheds what one after it need not: the order of the two
is free (log entry 3). Elsewhere BUDGET is told first (log entry 14). -/
def State.leaveRelease (s : State) (x : Bay) (st : BayState) : State :=
  if s.rescuesRelease x st then
    if Config.order s.turn then (s.nextTurn.dropClaims x).enterBay x st true
    else (s.nextTurn.enterBay x st true).dropClaims x
  else (s.dropClaims x).enterBay x st true

/-- R55, R56, R57. A bay leaves PREPARING without its release: the request ends, the lock request becomes 0, the projection is
removed, and the bay enters `st`, in the order that `State.leaveRelease` says. -/
def State.abandonRelease (s : State) (x : Bay) (st : BayState) (r : Result) (detail : Nat) : State :=
  (s.endPreparing x r detail).leaveRelease x st

/-- R59. The window starts or restarts at the setting. -/
def State.startWindow (s : State) (x : Bay) : State :=
  s.modBay x (fun b => { b with window := some (s.timer (1000 * s.bayc.window)) })

/-- R54. The three conditions of a bay in PREPARING. -/
def State.releaseReady (s : State) (x : Bay) : Bool :=
  (s.bay x).state == .preparing && !(s.source (packSource x)).closed && !s.chg.charging x && s.lockGranted x

/-- R54. The test, and the completion of the release where all three conditions hold. -/
def State.bayTest (s : State) (x : Bay) : State :=
  if s.releaseReady x then
    (((s.endPreparing x .ok s.bayc.window).dropProjection x).startWindow x).enterBay x .released true
  else s

/-- R60. The end of an unused window is applied. -/
def State.closeWindow (s : State) (x : Bay) : State :=
  let s1 := s.modBay x (fun b => { b with window := none, endDeferred := false })
  let seated := (s.pack x).identity.isSome
  let s2 := (s1.lockAsk x 0).enterBay x (if seated then .seated else .unusable) true
  if seated then s2.forcedPoll x else s2

/-- R60. A window ends unused; while the contact is open the end is deferred, and the window remaining stays until it is applied. -/
def State.endWindow (s : State) (x : Bay) : State :=
  if (s.bay x).contact then s.closeWindow x
  else s.modBay x (fun b => { b with endDeferred := true })

/-- R74, R54, R60. BUDGET hands a lock grant to BAYC. -/
def State.takeLockGrant (s : State) (x : Bay) (grant : Nat) : State :=
  match (s.bay x).state with
  | .preparing => s.bayTest x
  | .released => if grant < Config.lockPower && !(s.bay x).endDeferred then s.endWindow x else s
  | .empty => s
  | .settling => s
  | .identifying => s
  | .seated => s
  | .unusable => s

/-- R45. The removal of a bay is confirmed. The report to GLU comes last; BUDGET's recompute and PATH's rescue come in the order that
`State.leaveRelease` says. -/
def State.confirmRemoval (s : State) (x : Bay) : State :=
  let old := (s.bay x).state
  let kind := if old = .released then Removal.normal else Removal.unannounced
  let s1 := s.modBay x (fun b =>
    { b with removal := none, settle := none, window := none, endDeferred := false, lastRemoval := some kind })
  let s2 := if old = .preparing then s1.endPreparing x .removed 0 else s1
  (s2.leaveRelease x .empty).gluReset x

/-- R44, R33. A bay enters IDENTIFYING: BAYC reports the entry to GLU, which sets the link to IDENT and starts the
identification. -/
def State.enterIdentifying (s : State) (x : Bay) (announce : Bool) : State :=
  let s1 := (s.modBay x (fun b => { b with settle := none })).enterBay x .identifying announce
  ((s1.modPack x (fun p => { p with link := .ident })).beginIdent x .identBay).handLink x

/-- R43, R44. A bay enters SETTLING with a fresh settle. -/
def State.enterSettling (s : State) (x : Bay) : State :=
  (s.modBay x (fun b => { b with settle := some (s.timer Config.baySettle) })).enterBay x .settling false

/-- R46. A contact glitch: counted, held at 255, and reported to GLU. -/
def State.glitch (s : State) (x : Bay) : State :=
  (s.modBay x (fun b => { b with glitches := min 255 (b.glitches + 1) })).markSuspect x

end Sys2Proof.Machine
end

