-- ==== Sys2Proof/Machine/Budget.lean ====
section
/-! DEFINITION. BUDGET (sections 4.1 to 4.4): limits, capacity, the grant procedure, the recompute with its hand-overs, the release
projection and its recheck. -/

namespace Sys2Proof.Machine

/-! ### Limits and capacity (R38, R64, R65) -/

/-- R38. The limit basis of a pack, mW. -/
def PackRecord.basis (p : PackRecord) : Nat :=
  if p.link = .lost then Config.lostBasis
  else match p.snapshot with
    | some t => t.maxPower
    | none => Config.defaultBasis

/-- R64. The limit of a pack, mW. -/
def State.packLimit (s : State) (x : Bay) : Nat :=
  if (s.pack x).link = .none then 0
  else percent (s.pack x).basis (dischargeFactor (s.therm.zone (bayZone x)).level)

/-- R64. The limit of IN, mW: the override where it is not 0, else the class, 0 while IN is not PRESENT. -/
def Smon.inletLimit (m : Smon) : Nat :=
  if m.inlet.presence = .present then
    if m.override = 0 then (m.adapter.map AdapterClass.power).getD 0 else m.override
  else 0

/-- R64. The limit of a source. -/
def State.limitOf (s : State) : Source → Nat
  | .inlet => s.smon.inletLimit
  | .packA => s.packLimit .a
  | .packB => s.packLimit .b

/-- The sum of the limits of a set of sources. -/
def State.limitSum (s : State) (t : SourceSet) : Nat :=
  (if t.inlet then s.limitOf .inlet else 0) + (if t.packA then s.limitOf .packA else 0) +
    (if t.packB then s.limitOf .packB else 0)

/-- R65. The capacity that a set of sources gives. -/
def State.capacityOf (s : State) (t : SourceSet) : Nat := percent (s.limitSum t) (100 - s.budget.margin)

/-- R65. The capacity set. -/
def State.capacitySet (s : State) : SourceSet :=
  if s.path.mode = .brownout then .empty
  else if s.preparing.isSome then s.preferred
  else s.feeding

/-! ### The grant procedure (R68, R72) -/

/-- The floor that the grant procedure applies: at most the request (R68). -/
def Entry.appliedFloor (e : Entry) : Nat := min e.floor e.request

/-- R72. Grant order: priority from 7 down to 0, then index from low to high. -/
def grantOrder (es : List Entry) : List Nat :=
  [7, 6, 5, 4, 3, 2, 1, 0].flatMap (fun p =>
    (List.range es.length).filter (fun i => (es.getD i (.reset .host 0)).priority == p))

/-- R72, phase 1, and the state of R68: floors in order from a running remainder. -/
def grantFloors : List (Nat × Entry) → Nat → List (Nat × Entry) × Nat
  | [], rest => ([], rest)
  | (i, e) :: es, rest =>
    if e.request = 0 then
      let r := grantFloors es rest
      ((i, { e with grant := 0, state := .inactive }) :: r.1, r.2)
    else if e.appliedFloor ≤ rest then
      let r := grantFloors es (rest - e.appliedFloor)
      ((i, { e with grant := e.appliedFloor, state := .granted }) :: r.1, r.2)
    else
      let r := grantFloors es rest
      ((i, { e with grant := 0, state := .shed }) :: r.1, r.2)

/-- R72, phase 2: extras in the same order from what the floors left. -/
def grantExtras : List (Nat × Entry) → Nat → List (Nat × Entry)
  | [], _ => []
  | (i, e) :: es, rest =>
    if e.state = .granted then
      let extra := min (e.request - e.grant) rest
      (i, { e with grant := e.grant + extra }) :: grantExtras es (rest - extra)
    else (i, e) :: grantExtras es rest

/-- The entry that a list of shares gives an index. -/
def shareOf (i : Nat) (e : Entry) : List (Nat × Entry) → Entry
  | [] => { e with grant := 0, state := .inactive }
  | p :: ps => if p.1 = i then p.2 else shareOf i e ps

/-- R72. The shares of the entries in grant order. -/
def grantShares (headroom : Nat) (es : List Entry) : List (Nat × Entry) :=
  let r := grantFloors ((grantOrder es).map (fun i => (i, es.getD i (.reset .host 0)))) headroom
  grantExtras r.1 r.2

/-- R72. The whole table after the grant procedure. -/
def grantTable (headroom : Nat) (es : List Entry) : List Entry :=
  (List.range es.length).map (fun i => shareOf i (es.getD i (.reset .host 0)) (grantShares headroom es))

/-- The sum of the grants of a table. -/
def grantSum (es : List Entry) : Nat := (es.map Entry.grant).sum

/-! ### The recompute (R73 to R75) -/

/-- R64. The new limits are written into the source table. -/
def State.writeLimits (s : State) : State :=
  let i := s.limitOf .inlet
  let a := s.limitOf .packA
  let b := s.limitOf .packB
  { s with smon := { s.smon with
    inlet := { s.smon.inlet with limit := i }
    packA := { s.smon.packA with limit := a }
    packB := { s.smon.packB with limit := b } } }

/-- R75. An entry has gone from GRANTED to SHED. -/
def anyShed : List Entry → List Entry → Bool
  | o :: os, n :: ns => (o.state == .granted && n.state == .shed) || anyShed os ns
  | _, _ => false

/-- R74. A lock grant that has changed is handed to BAYC. -/
def State.handLock (old : Budget) (s : State) (x : Bay) : State :=
  let o := old.entry (lockIndex x)
  let n := s.budget.entry (lockIndex x)
  if o.grant = n.grant ∧ o.state = n.state then s else s.report (.lockGrant x n.grant)

/-- R74. The BACKLIGHT grant is handed to BLD where it or the state differs from what BLD last received. -/
def State.handBacklight (s : State) (e : Entry) : State :=
  if s.bld.lastGrant = e.grant ∧ s.bld.lastState = e.state then s else s.bldGrant e.grant e.state

/-- R74. The CHARGER grant is handed to CHG where it or the state differs from what CHG last received. -/
def State.handCharger (s : State) (e : Entry) : State :=
  if s.chg.lastGrant = e.grant ∧ s.chg.lastState = e.state then s else s.chgGrant e.grant e.state

/-- R73 to R75. A table is installed: the page is rewritten, BUDGET_SHED is raised where an entry was shed, the changed grants are
handed on. -/
def State.installTable (s : State) (capacity : Nat) (t : SourceSet) (headroom : Nat) (es : List Entry) : State :=
  let s1 := { s with budget := { s.budget with capacity, headroom, entries := es, capSet := t } }
  let s2 := (s1.rewriteBudget).raiseIf (anyShed s.budget.entries es) .budgetShed
  let s3 := State.handLock s.budget (State.handLock s.budget s2 .a) .b
  (s3.handBacklight (s1.budget.entry 2)).handCharger (s1.budget.entry 3)

/-- The computation of R73 on the inputs as they stand, without a recheck. -/
def State.computeTable (s : State) : State :=
  let t := s.capacitySet
  let s1 := s.writeLimits
  let capacity := s.capacityOf t
  let headroom := capacity - s.budget.base
  s1.installTable capacity t headroom (grantTable headroom s.budget.entries)

/-! ### The release projection (R77, R78) -/

/-- What a test of the projection gives: its capacity, its predicted load, and the detail of a refusal. -/
structure Verdict where
  capacity : Nat
  predicted : Nat
  refusal : Option Nat
deriving DecidableEq, Repr

/-- R77, step 4. The entries with LOCK_x at 2,400 mW. -/
def Budget.withLock (b : Budget) (x : Bay) : List Entry :=
  b.entries.set (lockIndex x)
    { b.entry (lockIndex x) with request := Config.lockPower, floor := Config.lockPower }

/-- R77, R78. The test for bay x: the reason is the detail of REFUSED_SOURCE, 1 for a shed lock, 2 for over capacity (R51). -/
def State.project (s : State) (x : Bay) : Verdict :=
  let capacity := s.capacityOf (s.preferredWithout (some x))
  let es := grantTable (capacity - s.budget.base) (s.budget.withLock x)
  let predicted := ((s.path.measured : Int) - ((grantSum s.budget.entries : Int) - grantSum es)).toNat
  let refusal :=
    if (es.getD (lockIndex x) (.reset .host 0)).state = .shed then some 1
    else if capacity < predicted + s.budget.swapMargin then some 2
    else none
  { capacity, predicted, refusal }

/-- The projected capacity and the predicted load of the last test are kept for the page (R78). -/
def State.keepTest (s : State) (v : Verdict) : State :=
  { s with budget := { s.budget with projCapacity := v.capacity, predicted := v.predicted } }

/-- R80. A recheck of the projection of bay x is due: the capacity or the base load differs from what the record last accepted, or a
SET_POWER_POLICY card was taken. -/
def State.recheckDue (s : State) (force : Bool) : Bool :=
  match s.preparing, s.budget.projection with
  | some _, some p => force || s.capacityOf s.capacitySet != p.capacity || s.budget.base != p.base
  | _, _ => false

/-- R80. The recheck: accepted, the record keeps the new capacity and base load and the table is installed; refused, the bay returns
to SEATED with REFUSED_SOURCE, detail 3, the record is removed and the table is computed on the feeding set. -/
def State.recheck (s : State) (x : Bay) : State :=
  let v := s.project x
  let s1 := s.keepTest v
  match v.refusal with
  | none =>
    { s1 with budget := { s1.budget with projection := some ⟨x, v.capacity, s.budget.base⟩ } }.computeTable.report (.bayTest x)
  | some _ => (s1.abandonRelease x .seated .refusedSource 3).computeTable

/-- R73, R80. A recompute; `force` where a SET_POWER_POLICY card causes it. -/
def State.recompute (s : State) (force : Bool) : State :=
  match s.preparing with
  | some x => if s.recheckDue force then s.recheck x else s.computeTable
  | none => s.computeTable

end Sys2Proof.Machine
end

