-- ==== Sys2Proof/Machine/Release.lean ====
section
/-! DEFINITION. BAYC, second part: the release request and its checks (section 3.3). -/

namespace Sys2Proof.Machine

/-- R50, check 3. An identification of R34 is in flight for the bay, counted while it waits for a poll to end. -/
def PackRecord.cardIdent (p : PackRecord) : Bool := p.identWaiting || p.op.any (fun o => o.kind == .identCard)

/-- A bay that is open or about to be opened. -/
def BayState.opening (b : BayState) : Bool := b == .preparing || b == .released

/-- BAYC sets the lock request to 2,400 mW and BUDGET recomputes at once (R52, R79). -/
def State.lockNow (s : State) (x : Bay) : State :=
  s.modEntry (lockIndex x) (fun e => { e with request := Config.lockPower, floor := Config.lockPower })

/-- R52. The unpowered-bay release of an UNUSABLE bay. -/
def State.unpoweredRelease (s : State) (x : Bay) (o : Origin) : State :=
  let s1 := (s.lockNow x).recompute false
  if s1.lockGranted x then
    ((s1.startWindow x).enterBay x .released true).endRequest x o .ok s.bayc.window
  else (s1.lockAsk x 0).endRequest x o .refusedSource 1

/-- R51, R79. The projection is accepted: the bay enters PREPARING with its request record and the prepare limit, BUDGET installs the
projection as the live table, CHG and PATH take the entry, and the three conditions are tested. -/
def State.beginPreparing (s : State) (x : Bay) (o : Origin) (v : Verdict) : State :=
  let s1 := s.modBay x (fun b =>
    { b with state := .preparing, request := some ⟨o, s.clock⟩, prepare := some (s.timer Config.prepareLimit) })
  let s2 := { s1 with budget := { s1.budget with projection := some ⟨x, v.capacity, s.budget.base⟩ } }
  (((s2.lockNow x).computeTable).enterBay x .preparing true).report (.bayTest x)

/-- R51. The release of a SEATED bay: the projection is tested. -/
def State.poweredRelease (s : State) (x : Bay) (o : Origin) : State :=
  let v := s.project x
  match v.refusal with
  | none => (s.keepTest v).beginPreparing x o v
  | some d => (s.keepTest v).endRequest x o .refusedSource d

/-- R50. A release request: the first check that holds settles it. -/
def State.releaseRequest (s : State) (x : Bay) (o : Origin) : State :=
  let st := (s.bay x).state
  if (s.bay (otherBay x)).state.opening then s.endRequest x o .refusedState 1
  else if st = .released then (s.startWindow x).endRequest x o .ok s.bayc.window
  else if (st = .seated ∨ st = .unusable) ∧ (s.pack x).cardIdent then s.endRequest x o .refusedState 3
  else if st = .unusable then s.unpoweredRelease x o
  else if st = .seated then s.poweredRelease x o
  else s.endRequest x o .refusedState 2

end Sys2Proof.Machine
end

