-- ==== Sys2Proof/Machine/Outcomes.lean ====
section
/-! DEFINITION. GLU, second part: the attempts of a read (R27) and the ends of identifications and re-identifying polls (R33 to R36),
with what they do to the bay. -/

namespace Sys2Proof.Machine

/-- The identity that three values read give. -/
def identityOf (v : List Nat) : Identity := { serial := v.getD 0 0, cells := v.getD 1 0, design := v.getD 2 0 }

/-- R33. A cell count that an identification accepts. -/
def Identity.good (i : Identity) : Bool := i.cells == 3 || i.cells == 4

/-- R34. The detail of a failure by content: the cell count read; one that a byte does not hold leaves the detail free (log
entry 29). -/
def cellDetail (cells : Nat) : Nat := if cells ≤ 255 then cells else (Config.cellDetail cells).toNat

/-- R34, R185. The result fields of an IDENTIFY_PACK card. -/
def identFields (i : Identity) : Fields := [(0x0A, u16 i.serial), (0x0C, u8 i.cells), (0x0E, u16 i.design)]

/-- R33, R34. The identity is installed, the link becomes ONLINE with a run of 0, and SUSPECT is cleared unless a mark arrived since the
identification began (R35). PACK_LINK is raised where the link was LOST. -/
def State.installIdentity (s : State) (x : Bay) (i : Identity) (marked : Bool) : State :=
  let p := s.pack x
  let s1 := s.modPack x (fun p =>
    { p with identity := some i, link := .online, failureRun := 0, suspect := p.suspect && marked, op := none })
  let s2 := s1.raiseIf (p.link == .lost) .packLink
  let s3 := if p.link = .online then s2 else s2.handLink x
  if p.suspect && !marked then s3.handSuspect else s3

/-- R33. The identification of a bay in IDENTIFYING succeeds. -/
def State.identBayGood (s : State) (x : Bay) (i : Identity) (marked : Bool) : State :=
  ((s.installIdentity x i marked).enterBay x .seated true).beginPoll x

/-- R34. The identification of a card succeeds. -/
def State.identCardGood (s : State) (x : Bay) (i : Identity) (marked : Bool) : State :=
  let s1 := s.installIdentity x i marked
  let s2 := if (s1.bay x).state = .unusable then s1.enterBay x .seated true else s1
  (s2.complete (bayResource x) .ok 0 (identFields i)).beginPoll x

/-- R33, R48. The identification of a bay in IDENTIFYING fails. BAYC's entry into UNUSABLE reaches PATH before the change of link does, so
that a closed switch is rescued and not planned away (R7, R18; log entry 14). -/
def State.identBayBad (s : State) (x : Bay) : State := (s.enterBay x .unusable true).gluEmpty x

/-- R34, R48. The identification of a card fails; the detail is 0xFF by link and the cell count by content. The bay leaves SEATED first
(R18). -/
def State.identCardBad (s : State) (x : Bay) (detail : Nat) : State :=
  let s1 := if (s.bay x).state = .unusable then s else s.enterBay x .unusable true
  let s2 := s1.gluEmpty x
  s2.complete (bayResource x) .linkFailed detail (identFields ⟨0, 0, 0⟩)

/-- R34. A card identification that waits for the channel starts on a record that a poll has just emptied: its link goes from NONE to
IDENT (log entry 25). -/
def State.startWaiting (s : State) (x : Bay) : State :=
  if (s.pack x).identWaiting then
    ((s.modPack x (fun p => { p with link := .ident })).beginIdent x .identCard).handLink x
  else s

/-- R36, R48, R57, R61. A re-identifying poll has read an impossible cell count: the bay, unless it is RELEASED, becomes UNUSABLE, and the
record is emptied. -/
def State.reidentBad (s : State) (x : Bay) : State :=
  let s1 := match (s.bay x).state with
    | .released => s
    | .preparing => s.abandonRelease x .unusable .refusedState 4
    | .unusable => s
    | .empty => s
    | .settling => s
    | .identifying => s.enterBay x .unusable true
    | .seated => s.enterBay x .unusable true
  (s1.gluEmpty x).startWaiting x

/-- R36. The identity reads of a re-identifying poll succeed: the identity is replaced, SUSPECT is cleared under R35, and the eight
reads of R28 follow. -/
def State.reidentGood (s : State) (x : Bay) (o : GaugeOp) : State :=
  let cleared := (s.pack x).suspect && !o.marked
  let s1 := s.modPack x (fun p =>
    { p with identity := some (identityOf o.gathered), suspect := p.suspect && o.marked,
             op := some { o with failed := 0, marked := false } })
  if cleared then s1.handSuspect else s1

/-- R27. A read succeeds: the value joins those gathered, and the last one of the operation ends it. -/
def State.attemptGood (s : State) (x : Bay) (value : Nat) (alarms : Alarms) : State :=
  match (s.pack x).op with
  | none => s
  | some o =>
    let o' : GaugeOp := { o with gathered := o.gathered ++ [value], failed := 0 }
    let next := s.modPack x (fun p => { p with op := some o' })
    let i := identityOf o'.gathered
    match o.kind with
    | .identBay =>
      if o'.gathered.length < 3 then next
      else if i.good then s.identBayGood x i o.marked else s.identBayBad x
    | .identCard =>
      if o'.gathered.length < 3 then next
      else if i.good then s.identCardGood x i o.marked else s.identCardBad x (cellDetail i.cells)
    | .poll =>
      if o'.gathered.length < 8 then next else s.pollGood x (snapshotOf o'.gathered alarms s.clock)
    | .reident =>
      if o'.gathered.length = 3 then (if i.good then s.reidentGood x o' else s.reidentBad x)
      else if o'.gathered.length < 11 then next
      else s.pollGood x (snapshotOf (o'.gathered.drop 3) alarms s.clock)

/-- R27. An attempt fails: another attempt of the same read while the retry limit allows, else the read fails and ends its
operation. -/
def State.attemptBad (s : State) (x : Bay) : State :=
  match (s.pack x).op with
  | none => s
  | some o =>
    if o.failed < s.glu.retryLimit then s.modPack x (fun p => { p with op := some { o with failed := o.failed + 1 } })
    else match o.kind with
      | .identBay => s.identBayBad x
      | .identCard => s.identCardBad x 0xFF
      | .poll => s.pollBad x
      | .reident => s.pollBad x

end Sys2Proof.Machine
end

