-- ==== Sys2Proof/Machine/PathControl.lean ====
section
/-! DEFINITION. PATH (chapter 1): the switches, the evaluation, the planned transfer, the hold set, the rescue, BROWNOUT. -/

namespace Sys2Proof.Machine

/-! ### Switches (R8, R9) -/

/-- PATH sets the three switches. -/
def State.setSwitches (s : State) (f : SourceSet) : State :=
  { s with smon := { s.smon with
    inlet := { s.smon.inlet with closed := f.inlet }
    packA := { s.smon.packA with closed := f.packA }
    packB := { s.smon.packB with closed := f.packB } } }

/-- The refusal of a recheck and the completion of a release would both follow from what stands (R55). -/
def State.contested (s : State) (x : Bay) : Bool :=
  s.releaseReady x && s.recheckDue false && (s.project x).refusal.isSome

/-- R8, R55. The change of the feeding set is reported to BUDGET and BAYC. Where the recheck would refuse and the last condition of the
release holds, either may be taken first: the order is free (log entry 3). Where the completion is first it goes before every report that
waits, a recompute that was reported before among them, as for an inlet whose loss opens the last switch. -/
def State.reportFeeding (s : State) : State :=
  match s.preparing with
  | some x =>
    if s.contested x then
      if Config.order s.turn then (s.nextTurn.report .recompute).report (.bayTest x)
      else (s.nextTurn.reportFirst (.bayTest x)).report .recompute
    else (s.report .recompute).report (.bayTest x)
  | none => s.report .recompute

/-- R8, R22. Where the feeding set differs from `old`: SOURCE_CHANGE, the reports to BUDGET and BAYC, and CHG's bar ends with an
evaluation (R94, R95). -/
def State.feedingChanged (old : SourceSet) (s : State) : State :=
  if s.feeding = old then s else ((s.raise .sourceChange).chgFeeding).reportFeeding

/-- R9. The charger interlock for each pack of a set. -/
def State.interlock (s : State) (t : SourceSet) : State :=
  let s1 := if t.packA then s.chgInterlock .a else s
  if t.packB then s1.chgInterlock .b else s1

/-- The path enters a state with a transfer record or without one; a change of path state raises SOURCE_CHANGE (R22). -/
def State.setPath (s : State) (m : PathMode) (t : Option Transfer) : State :=
  { s with path := { s.path with mode := m, transfer := t } }.raiseIf (s.path.mode != m) .sourceChange

/-! ### The leaving of BROWNOUT and the planned transfer (R15, R16, R20) -/

/-- A set of sources from a list. -/
def SourceSet.ofList (l : List Source) : SourceSet := ⟨l.contains .inlet, l.contains .packA, l.contains .packB⟩

/-- The members of a set that pass the check of R19. -/
def State.passing (s : State) (t : SourceSet) : SourceSet :=
  ⟨t.inlet && s.passes .inlet, t.packA && s.passes .packA, t.packB && s.passes .packB⟩

/-- R20. What PATH closes on leaving BROWNOUT: the preferred set, else one last-resort pack. -/
def State.revival (s : State) : SourceSet :=
  if s.preferred.isEmpty then
    match s.lastResortOrder.find? s.passes with
    | some x => .single x
    | none => .empty
  else s.passing s.preferred

/-- R16. The reason of a transfer. -/
def State.reasonOf (s : State) (incoming outgoing : SourceSet) (policy : Bool) : Reason :=
  if s.preparing = some .a ∧ outgoing.packA then .releaseA
  else if s.preparing = some .b ∧ outgoing.packB then .releaseB
  else if incoming.inlet then .inReturn
  else if policy then .policy
  else .sequential

/-- R15, R16. A planned transfer to the preferred set. Without an incoming source it only removes; with one it is made first. -/
def State.plan (s : State) (policy : Bool) : State :=
  let old := s.feeding
  let incoming := s.preferred.less old
  let outgoing := old.less s.preferred
  if incoming.isEmpty then State.feedingChanged old (s.setSwitches (old.less outgoing))
  else
    let t : Transfer :=
      { incoming, outgoing, reason := s.reasonOf incoming outgoing policy, start := s.clock
        settle := some (s.timer Config.transferSettle) }
    State.feedingChanged old (((s.interlock incoming).setSwitches (old.union incoming)).setPath .making (some t))

/-- R15. The conditions under which a planned transfer begins. -/
def State.planDue (s : State) : Bool :=
  s.path.holds.isEmpty && !s.preferred.isEmpty && s.preferred != s.feeding

/-- R80. A change of the preferred set while a bay is PREPARING is a cause of a recompute (R73). -/
def State.preferredMoved (s : State) : State :=
  if s.preparing.isSome && s.path.mode != .brownout && s.preferred != s.budget.capSet then s.report .recompute else s

/-- R15, R20. An evaluation; `policy` where a SET_POWER_POLICY card causes it. Leaving BROWNOUT is followed by an evaluation, for which
a report is left. -/
def State.evaluate (s : State) (policy : Bool) : State :=
  let s := s.preferredMoved
  match s.path.mode with
  | .steady => if s.planDue then s.plan policy else s
  | .making => s
  | .paused => s
  | .brownout =>
    if s.revival.isEmpty then s
    else
      let s1 := ((s.interlock s.revival).setSwitches (s.feeding.union s.revival)).setPath .steady none
      (State.feedingChanged s.feeding s1).report (.evaluate false)

/-! ### Rescue (R18 to R20) -/

/-- R20, R21. PATH enters BROWNOUT, which asserts PFW# (`Path.pfw`): the measured load is 0, the level bit is set, BUDGET is told. -/
def State.enterBrownout (s : State) : State :=
  (({ s with path := { s.path with measured := 0 } }.setPath .brownout none).raise .brownout).report .recompute

/-- R19. What a rescue that has left nothing feeding closes: every member of the preferred set that passes; else the first other
eligible source that passes, in the order IN, A, B; else the first last-resort candidate that passes. -/
def State.replacement (s : State) : SourceSet :=
  let first := s.passing s.preferred
  if first.isEmpty then
    match (([Source.inlet, .packA, .packB].filter s.eligible) ++ s.lastResortOrder).find? s.passes with
    | some x => .single x
    | none => .empty
  else first

/-- R18. The transfer record and the feeding set after the loss of a source that was feeding. `feeding` is the set without it. -/
def Transfer.lose (t : Transfer) (x : Source) (feeding : SourceSet) : Option Transfer × SourceSet :=
  if t.incoming.has x then
    let rest := t.incoming.less (.single x)
    let kept := feeding.less rest
    (none, if kept.isEmpty then feeding else kept)
  else (some { t with outgoing := t.outgoing.less (.single x) }, feeding)

/-- R18, R19. The rescue after its edit of the record: `t` is the record that remains, `f` the feeding set. -/
def State.rescueTo (s : State) (t : Option Transfer) (f : SourceSet) : State :=
  let old := s.feeding
  let s1 := s.setSwitches f
  let s2 := match t with
    | some r => s1.setPath s.path.mode (some r)
    | none => s1.setPath .steady none
  if f.isEmpty then
    let r := s2.replacement
    if r.isEmpty then State.feedingChanged old ((s2.setPath .steady none).enterBrownout)
    else (State.feedingChanged old (((s2.interlock r).setSwitches r).setPath .steady none)).report (.evaluate false)
  else
    let s3 := State.feedingChanged old s2
    if t.isSome then s3 else s3.report (.evaluate false)

/-- R18. The rescue that the loss of a source with a CLOSED switch starts. -/
def State.rescue (s : State) (x : Source) : State :=
  let f := s.feeding.less (.single x)
  match s.path.transfer with
  | some t =>
    let r := t.lose x f
    s.rescueTo r.1 r.2
  | none => s.rescueTo none f

/-- R7, R18. A bay has become EMPTY or UNUSABLE: a rescue where its pack's switch is CLOSED, an evaluation otherwise. -/
def State.bayLost (s : State) (x : Bay) : State :=
  if (s.source (packSource x)).closed then s.rescue (packSource x) else s.evaluate false

/-! ### The end of a transfer, and the hold set (R16, R17) -/

/-- R16. The settle has expired in MAKING: the break, STEADY, an evaluation. -/
def State.breakTransfer (s : State) (t : Transfer) : State :=
  let old := s.feeding
  (State.feedingChanged old ((s.setSwitches (old.less t.outgoing)).setPath .steady none)).report (.evaluate false)

/-- The POST_IMPACT timer that a placement of a kind leaves running: a placement of POST_IMPACT starts it afresh (R17). -/
def State.holdTimer (s : State) (k : HoldKind) : Option Timer :=
  match k with
  | .postImpact => some (s.timer Config.postImpact)
  | .freefall => s.path.postImpact
  | .software => s.path.postImpact

/-- R17. A hold is placed. In MAKING the path turns to PAUSED and its settle is discarded. -/
def State.placeHold (s : State) (k : HoldKind) : State :=
  let s1 := { s with path := { s.path with holds := s.path.holds.put k true, postImpact := s.holdTimer k } }
  match s.path.mode, s.path.transfer with
  | .making, some t => s1.setPath .paused (some { t with settle := none })
  | _, _ => s1

/-- R17. A hold is removed. When the set becomes empty PAUSED returns to MAKING with a fresh settle, and STEADY or BROWNOUT
evaluates. -/
def State.removeHold (s : State) (k : HoldKind) : State :=
  let timer := match k with
    | .postImpact => none
    | .freefall => s.path.postImpact
    | .software => s.path.postImpact
  let s1 := { s with path := { s.path with holds := s.path.holds.put k false, postImpact := timer } }
  if s1.path.holds.isEmpty && !s.path.holds.isEmpty then
    match s.path.mode, s.path.transfer with
    | .paused, some t => s1.setPath .making (some { t with settle := some (s.timer Config.transferSettle) })
    | _, _ => s1.evaluate false
  else s1

end Sys2Proof.Machine
end

