-- ==== Sys2Proof/Machine/Cascade.lean ====
section
/-! DEFINITION. The reports between blocks: each is taken in the order it was made, until none is left. -/

namespace Sys2Proof.Machine

/-- A receiver takes a report. -/
def State.take (s : State) : Report → State
  | .evaluate policy => s.evaluate policy
  | .sourceLost x => s.bayLost x
  | .recompute => s.recompute false
  | .derive => s.deriveToken
  | .bayTest x => s.bayTest x
  | .lockGrant x grant => s.takeLockGrant x grant

/-- Reports are taken first in, first out, while the bound lasts. -/
def State.drain : Nat → State → State
  | 0, s => s
  | n + 1, s =>
    match s.reports with
    | [] => s
    | r :: rest => State.drain n ({ s with reports := rest }.take r)

/-- All reports of a step are taken (log entry 6). -/
def State.settle (s : State) : State := s.drain Config.cascade

/-- The end of a step that may have reported: every report is taken, and the power page is rewritten where its contents have changed
since `old` (R23, log entry 8). -/
def State.commit (old : State) (s : State) : State := publishPower old s.settle

end Sys2Proof.Machine
end

