-- ==== Sys2Proof/Machine/Sampling.lean ====
section
/-! DEFINITION. THERM's sampling (R98), whose changes of level are handed on one after the other, each with all that it reports (R102). -/

namespace Sys2Proof.Machine

/-- A zone is put at a free place of a list: one value of the free order, from the turn `n` on, for each zone that it may pass. -/
def insertFree (z : ZoneName) : Nat → List ZoneName → List ZoneName
  | _, [] => [z]
  | n, y :: l => if Config.order n then z :: y :: l else y :: insertFree z (n + 1) l

/-- R102. The changes of one sampling in a free order (log entry 3): each order of the list is one of its values. -/
def freeOrder : Nat → List ZoneName → List ZoneName
  | _, [] => []
  | n, z :: l => insertFree z n (freeOrder (n + l.length) l)

/-- R102. The changes of level of one sampling are handed on one after the other. Each is complete in itself: every report that it causes is
taken before the next change is handed (DEDUCED, log entry 19). `handed` has the levels handed before. -/
def State.handChanges (new : Therm) : List ZoneName → Therm → State → State
  | [], _, s => s
  | z :: rest, handed, s =>
    let now := handed.setZone z (new.zone z)
    State.handChanges new rest now (s.handLevel now z).settle

/-- R98, R102, R106, R107. One sampling of the three thermistors: the page shows the whole of it, its bits are raised once, and its changes
of level are handed on in a free order (log entry 3). -/
def State.thermSample (s : State) (panel charger enclosure : Int) : State :=
  let new := s.therm.sampled panel charger enclosure s.clock
  let moved := s.therm.moved new
  let s1 := { s.thermShow new with turn := s.turn + moved.length }
  State.handChanges new (freeOrder s.turn moved) s.therm s1

end Sys2Proof.Machine
end

