-- ==== Sys2Proof/Machine/Light.lean ====
section
/-! DEFINITION. ALS (chapter 7): the integration cycle, the processing of a completion, the fault timer, the runs. -/

namespace Sys2Proof.Machine

/-! ### The processing of a completion (R112 to R115) -/

/-- R112. A sample is saturated. -/
def saturated (c i : Nat) : Bool := c == 65535 || i == 65535

/-- R113. The raw lux of a sample that is not saturated. -/
def rawLux (c i rejection gain : Nat) : Nat := min Config.luxMax ((c - i * rejection / 256) * 2 / gain)

/-- R114. The gain for the next integration. -/
def nextGain (c i gain : Nat) : Nat :=
  if (60000 ≤ c ∨ 60000 ≤ i) ∧ 1 < gain then gain / 8
  else if c < 2000 ∧ i < 2000 ∧ gain < 64 then gain * 8
  else gain

/-- R115. F after a sample: a step toward the raw lux by the weight in sixteenths, truncated toward zero, and by at least 1. -/
def smooth (f raw rise fall : Nat) : Nat :=
  let delta : Int := (raw : Int) - f
  let step := Int.tdiv (delta * (if 0 < delta then rise else fall : Nat)) 16
  let step := if step = 0 then (if 0 < delta then 1 else if delta < 0 then -1 else 0) else step
  (clampInt 0 Config.luxMax ((f : Int) + step)).toNat

/-- R112 to R115. The light unit after it has processed the counts. -/
def Als.process (l : Als) (c i : Nat) : Als :=
  if saturated c i && Nat.blt 1 l.gain then { l with c, i, gain := l.gain / 8, discarded := true }
  else
    let raw := if saturated c i then Config.luxMax else rawLux c i l.rejection l.gain
    { l with c, i, raw, gain := nextGain c i l.gain, f := smooth l.f raw l.rise l.fall, discarded := false }

/-! ### Cycles and runs (R110, R111, R117, R118) -/

/-- ALS's own record is changed. -/
def State.setAls (s : State) (f : Als → Als) : State := { s with als := f s.als }

/-- R110, R116, R117, R120. A completion: the stamp, the end of a fault, the fault timer afresh, the processing, and the next cycle; a
changed F goes to BLD, and the light section is rewritten. -/
def State.lightComplete (s : State) (c i : Nat) : State :=
  let s1 := s.setAls (fun l =>
    { l.process c i with
      completion := some s.clock, fault := false, faultTimer := some (s.timer Config.lightFault), cycle := some .starting })
  (if s1.als.f = s.als.f then s1 else s1.derive (fun b => { b with f := s1.als.f })).rewriteLight

/-- R111. A transaction of a cycle fails: WAITING for 100 ms. -/
def State.lightFailed (s : State) : State :=
  (s.setAls (fun l => { l with integration := none, wait := some (s.timer Config.lightWait), cycle := some .waiting })).rewriteLight

/-- R118. The idle transaction has ended, whether or not it succeeded; a run that waits for it begins its first cycle. The page is not
rewritten for it (DEDUCED, log entry 42). -/
def State.lightIdleEnd (s : State) : State :=
  s.setAls (fun l => { l with idling := false, cycle := if l.running then some .starting else l.cycle })

/-- R111. A transaction on LS fails: the idle transaction, without the rewrite of R120 (DEDUCED, log entry 42), or one of a cycle. Nothing
happens while none is in flight (log entry 10). -/
def State.lightTransactionFails (s : State) : State :=
  if s.als.idling then s.lightIdleEnd
  else match s.als.cycle with
    | some .starting => s.lightFailed
    | some .reading => s.lightFailed
    | some .integrating => s
    | some .waiting => s
    | none => s

/-- R118. A run begins. -/
def State.lightRun (s : State) : State :=
  (s.setAls (fun l =>
    { l with running := true, faultTimer := if l.fault then none else some (s.timer Config.lightFault),
             cycle := if l.idling then none else some .starting })).rewriteLight

/-- R118. A run stops: the transaction in flight and every timer are discarded, and the idle transaction is sent. -/
def State.lightStop (s : State) : State :=
  (s.setAls (fun l =>
    { l with running := false, cycle := none, integration := none, wait := none, faultTimer := none, idling := true })).rewriteLight

/-- R117. The fault timer has run out: FAULT, the page, then the level bit. -/
def State.lightFault (s : State) : State :=
  ((s.setAls (fun l => { l with fault := true, faultTimer := none })).rewriteLight).raise .sensorFault

end Sys2Proof.Machine
end

