-- ==== Sys2Proof/Machine/ParkControl.lean ====
section
/-! DEFINITION. PARK (section 9.4): requests, the acknowledge, the timer, releases and the latch. -/

namespace Sys2Proof.Machine

/-- PARK_REQ is asserted in REQUESTED and PARKED (R150). -/
def Park.req (p : Park) : Bool := p.state != .released

/-- The result fields of a PARK or RELEASE_PARK card (R185). -/
def parkFields (p : Park) : Fields := [(0x08, u8 p.state.code), (0x09, yesNo p.latch)]

/-- PARK's record is changed; the motion page is rewritten where the park state, the latch or PARK_ACK has changed (R153). -/
def State.setPark (s : State) (p : Park) : State :=
  let s1 := { s with park := p }
  if p.state = s.park.state ∧ p.latch = s.park.latch ∧ p.ack = s.park.ack then s1 else s1.rewriteMotion

/-- R150. A park request. -/
def State.parkRequest (s : State) : State :=
  match s.park.state with
  | .released =>
    if s.park.ack then s.setPark { s.park with state := .parked, timer := none }
    else s.setPark { s.park with state := .requested, timer := some (s.timer Config.parkAck) }
  | .requested =>
    match s.park.timer with
    | some _ => s
    | none => s.setPark { s.park with timer := some (s.timer Config.parkAck) }
  | .parked => s

/-- R152, R176. A PARK operation ends, if one runs. -/
def State.endPark (s : State) (r : Result) : State := s.complete .park r 0 (parkFields s.park)

/-- R150. PARK_ACK has changed. -/
def State.parkAck (s : State) (asserted : Bool) : State :=
  match s.park.state, asserted with
  | .requested, true => (s.setPark { s.park with ack := true, state := .parked, timer := none }).endPark .ok
  | .parked, false => s.setPark { s.park with ack := false, state := .requested, timer := some (s.timer Config.parkAck) }
  | .released, _ => s.setPark { s.park with ack := asserted }
  | .requested, false => s.setPark { s.park with ack := false }
  | .parked, true => s.setPark { s.park with ack := true }

/-- R150, R152. The acknowledge timer has run out: the page, PARK_TIMEOUT, and TIMEOUT for a PARK operation. -/
def State.parkTimeout (s : State) : State :=
  ((({ s with park := { s.park with timer := none } }).rewriteMotion).raise .parkTimeout).endPark .timeout

/-- R151. A release; it ends a PARK operation with ABORTED. -/
def State.parkRelease (s : State) : State :=
  if s.park.state = .released then s
  else (s.setPark { s.park with state := .released, timer := none }).endPark .aborted

/-- R151. Auto release, on the detector's return from SETTLE to IDLE. -/
def State.autoRelease (s : State) : State := if s.mot.autoRelease && !s.park.latch then s.parkRelease else s

/-- R151, R161. ICL latches the park: the latch, the level bit after the page, and a park request, whose restart of the timer rewrites no page
(log entry 46). -/
def State.parkLatch (s : State) : State := ((s.setPark { s.park with latch := true }).raise .parkLatched).parkRequest

end Sys2Proof.Machine
end

