-- ==== Sys2Proof/Machine/Impacts.lean ====
section
/-! DEFINITION. ICL (chapter 10): the record, the height, the classifier, the severity actions, the ring. -/

namespace Sys2Proof.Machine

/-- A fall that the classifier sees (R157): DROP and FALL_NO_IMPACT. -/
def ImpactKind.fallSeen : ImpactKind → Bool
  | .shock => false
  | .drop => true
  | .fallNoImpact => true

/-- R156. The height of a fall, mm. -/
def dropHeight (samples : Nat) : Nat :=
  let t := samples * 5 / 4
  min 65535 (9807 * t * t / 2000000)

/-- R155, R156. The height of a finished measurement; a figure that is absent reads 0. -/
def Finished.height (f : Finished) : Nat := if f.kind.fallSeen then dropHeight f.fall else 0

/-- R157. The figure that a rule reads. -/
def Finished.figure (f : Finished) : ClassField → Nat
  | .peak => f.peak
  | .height => f.height
  | .overCount => f.overs
  | .rebounds => f.rebounds
  | .fallSeen => f.kind.fallSeen.toNat

/-- R157. The raw result of a rule. -/
def ClassRule.raw (r : ClassRule) (f : Finished) : Bool := xor (Nat.ble r.value (f.figure r.field)) r.invert

/-- R157. The final result of a rule, given its chain partner's. -/
def ClassRule.final (r : ClassRule) (f : Finished) (partner : Bool) : Bool :=
  r.enable && r.raw f && (!r.chain || partner)

/-- R157, R158. The severity that the rules of a list give, in index order. -/
def severityOf (f : Finished) : List ClassRule → Bool → Nat
  | [], _ => 0
  | r :: rs, partner =>
    let final := r.final f partner
    max (if final then r.severity else 0) (severityOf f rs final)

/-- R158. The severity of a finished measurement under the installed rules. -/
def Icl.severity (c : Icl) (f : Finished) : Nat := severityOf f [c.rule0, c.rule1, c.rule2, c.rule3] f.kind.fallSeen

/-- R161. The actions set: FORCED_POLL, PACKS_SUSPECT, HOLD_EXTENDED, PARK_LATCHED. -/
def actionsOf (severity : Nat) : Nat :=
  setBits (Nat.ble 1 severity) (Nat.ble 2 severity) (Nat.ble 2 severity) (Nat.ble 3 severity)

/-- R154, R155, section 13.6. The 32 bytes of a record; `seq` is its sequence number. -/
def recordImage (s : State) (f : Finished) (seq : Nat) : List Byte :=
  let severity := s.icl.severity f
  u16 seq ++ u8 f.kind.code ++ u8 s.psd.platform.code ++ u32 s.seconds.toNat ++ u16 f.fall ++ u16 f.height ++ u16 f.peak ++
    optCode PeakAxis.code f.axis ++ u8 severity ++ u16 f.overs ++ u16 f.rebounds ++ u8 (actionsOf severity) ++
    u8 s.bayc.bayA.glitches ++ u8 s.bayc.bayB.glitches ++ pad 9

/-- R161. A forced-poll request and a SUSPECT mark for one pack. On an idle channel of a pack that is polled their order tells which of
two polls re-identifies (section 2.9), and it is free (log entry 3). -/
def State.pollAndMark (s : State) (x : Bay) : State :=
  if s.pollable x && (s.pack x).op.isNone then
    if Config.order s.turn then (s.nextTurn.forcedPoll x).markSuspect x else (s.nextTurn.markSuspect x).forcedPoll x
  else (s.forcedPoll x).markSuspect x

/-- R161. Both packs are marked and polled. Where both are candidates for charging, which is marked first tells (R88: the second may take the
charger for a moment, and CHG_SEL stays with it), and the order is free (log entry 3). -/
def State.pollAndMarkBoth (s : State) : State :=
  if s.candidate .a && s.candidate .b then
    if Config.order s.turn then (s.nextTurn.pollAndMark .a).pollAndMark .b else (s.nextTurn.pollAndMark .b).pollAndMark .a
  else (s.pollAndMark .a).pollAndMark .b

/-- R161. The actions of a severity. -/
def State.actions (s : State) (severity : Nat) : State :=
  match severity with
  | 0 => s
  | 1 => (s.forcedPoll .a).forcedPoll .b
  | 2 => (s.placeHold .postImpact).pollAndMarkBoth
  | _ => (s.placeHold .postImpact).pollAndMarkBoth.parkLatch

/-- R162, R164. The unread records: W less Rd, taken as 0 above 16. -/
def State.unread (s : State) : Nat :=
  let n := (s.icl.written - s.readCount).toNat
  if 16 < n then 0 else n

/-- R162, R163. A record is placed: the whole record, then W in the control block, then IMPACT_LOGGED; into a full ring it is discarded
and counted lost. -/
def State.place (s : State) (record : List Byte) : State :=
  if s.unread < 16 then
    let s1 := s.write (Mem.ringSlot s.icl.written.toNat) record
    (({ s1 with icl := { s1.icl with written := s1.icl.written + 1 } }).write (Mem.control + 2)
      (u8 (s.icl.written + 1).toNat)).raise .impactLogged
  else
    ({ s with icl := { s.icl with lost := min 255 (s.icl.lost + 1) } }).write (Mem.control + 4) (u8 (min 255 (s.icl.lost + 1)))

/-- R154, R165. MOT hands over a finished measurement: the record is built, the page rewritten, the actions are handed out, the record
is placed. Whether the rewrite for the record stands before or after the actions is left open: before them, so it does not show an acknowledge
timer that the request of the latch restarts (DESIGN CHOICE, log entry 46). -/
def State.logImpact (s : State) (f : Finished) : State :=
  let record := recordImage s f s.icl.nextSeq.toNat
  let severity := s.icl.severity f
  let s1 := { s with icl := { s.icl with nextSeq := s.icl.nextSeq + 1 } }
  let s2 := (s1.modBay .a (fun b => { b with glitches := 0 })).modBay .b (fun b => { b with glitches := 0 })
  ((s2.rewriteMotion).actions severity).place record

end Sys2Proof.Machine
end

