-- ==== Sys2Proof/Machine/Motion.lean ====
section
/-! DEFINITION. MOT (sections 9.1 to 9.3): samples, the detector, the stall, and what the detector hands on. -/

namespace Sys2Proof.Machine

/-! ### Samples (R140, R142) -/

/-- An axis reading outside −16,000..+16,000 mg is taken at the nearer end. -/
def axisOf (v : Half) : Int := clampInt (-16000) 16000 v.toInt

/-- R140, R142. The sample of a read. -/
def sampleOf (seq : Byte) (x y z : Half) : Sample :=
  let x := axisOf x
  let y := axisOf y
  let z := axisOf z
  { x, y, z, seq, m2 := (x * x + y * y + z * z).toNat }

/-- R142. -/
def Motion.low (m : Motion) (t : Sample) : Bool := Nat.blt t.m2 (m.ffThreshold * m.ffThreshold)

/-- R142. -/
def Motion.high (m : Motion) (t : Sample) : Bool := Nat.ble (m.impThreshold * m.impThreshold) t.m2

/-- R142. -/
def Sample.still (t : Sample) : Bool := Nat.ble 640000 t.m2 && Nat.ble t.m2 1440000

/-- R146. The axis of largest absolute component, in the order x, y, z, and its sign. -/
def Sample.peakAxis (t : Sample) : PeakAxis :=
  if t.y.natAbs ≤ t.x.natAbs ∧ t.z.natAbs ≤ t.x.natAbs then ⟨.x, decide (t.x < 0)⟩
  else if t.z.natAbs ≤ t.y.natAbs then ⟨.y, decide (t.y < 0)⟩
  else ⟨.z, decide (t.z < 0)⟩

/-! ### The detector (R143 to R147) -/

/-- What a sample hands on. -/
structure Handed where
  /-- a park request -/
  park : Bool := false
  /-- FREEFALL is placed -/
  place : Bool := false
  /-- FREEFALL is removed -/
  remove : Bool := false
  /-- a finished measurement for ICL -/
  done : Option Finished := none
  /-- the return from SETTLE to IDLE, for PARK -/
  home : Bool := false
deriving DecidableEq, Repr

/-- R146. A window opened by its triggering sample. -/
def Window.opened (kind : ImpactKind) (fall : Nat) (t : Sample) : Window :=
  { kind, elapsed := 1, peak2 := t.m2, axis := t.peakAxis, overs := 1, rebounds := 0, fall }

/-- R144, R147. A shock: the window opens; PARK is requested if park on shock is yes. The stillness run becomes 0 at a shock from IDLE too
(DEDUCED, log entry 24). -/
def Motion.shock (m : Motion) (t : Sample) : Motion × Handed :=
  ({ m with detector := .impact, stillness := 0, window := some (.opened .shock 0 t) }, { park := m.parkOnShock })

/-- R144, R147. A low sample starts a candidate run. The stillness run becomes 0 from IDLE too (DEDUCED, log entry 24). -/
def Motion.candidate (m : Motion) (o : CandOrigin) : Motion × Handed :=
  ({ m with detector := .candidate, origin := some o, candRun := 1, stillness := 0 }, {})

/-- R144, in IDLE. -/
def Motion.inIdle (m : Motion) (t : Sample) : Motion × Handed :=
  if m.low t then m.candidate .idle else if m.high t then m.shock t else (m, {})

/-- R147, in SETTLE. -/
def Motion.inSettle (m : Motion) (t : Sample) (d : Nat) : Motion × Handed :=
  if t.still then
    let run := min 200 (m.stillness + d)
    if 200 ≤ run then ({ m with detector := .idle, stillness := run }, { home := true }) else ({ m with stillness := run }, {})
  else if m.high t then m.shock t
  else if m.low t then m.candidate .settle
  else ({ m with stillness := 0 }, {})

/-- R144. The end of a candidate run: the detector returns to its origin, where the sample is applied. -/
def Motion.backToOrigin (m : Motion) (t : Sample) (d : Nat) : Motion × Handed :=
  match m.origin with
  | some .settle => { m with detector := .settle, origin := none, candRun := 0, stillness := 0 }.inSettle t d
  | some .idle => { m with detector := .idle, origin := none, candRun := 0 }.inIdle t
  | none => { m with detector := .idle, origin := none, candRun := 0 }.inIdle t

/-- R144, in CANDIDATE. -/
def Motion.inCandidate (m : Motion) (t : Sample) (d : Nat) : Motion × Handed :=
  if m.low t && d == 1 then
    if m.ffCount ≤ m.candRun + 1 then
      ({ m with detector := .falling, origin := none, candRun := 0, fall := m.ffCount, pendingNormal := 0, quiet := 0 },
        { park := true, place := true })
    else ({ m with candRun := min 255 (m.candRun + 1) }, {})
  else m.backToOrigin t d

/-- R145. A finished fall without impact. -/
def Finished.ofFall (fall : Nat) : Finished :=
  { kind := .fallNoImpact, fall, peak := 0, axis := none, overs := 0, rebounds := 0 }

/-- R145, in FALLING. -/
def Motion.inFalling (m : Motion) (t : Sample) (d : Nat) : Motion × Handed :=
  if m.low t then
    ({ m with fall := min 65535 (m.fall + m.pendingNormal + d), pendingNormal := 0, quiet := 0 }, {})
  else if m.high t then
    ({ m with detector := .impact, window := some (.opened .drop m.fall t) }, {})
  else
    let quiet := min 16 (m.quiet + d)
    let m1 := { m with quiet, pendingNormal := min 65535 (m.pendingNormal + d) }
    if 16 ≤ quiet then
      ({ m1 with detector := .settle, stillness := 0, finished := some (.ofFall m.fall) },
        { remove := true, done := some (.ofFall m.fall) })
    else (m1, {})

/-- R146. The window after a later sample; `before` where the previous accepted sample was high. -/
def Window.next (w : Window) (t : Sample) (d : Nat) (high before : Bool) : Window :=
  { w with
    elapsed := w.elapsed + d
    peak2 := max w.peak2 t.m2
    axis := if w.peak2 < t.m2 then t.peakAxis else w.axis
    overs := w.overs + high.toNat
    rebounds := w.rebounds + (high && !before).toNat }

/-- R146. The finished window as MOT hands it over. -/
def Window.finish (w : Window) : Finished :=
  { kind := w.kind, fall := w.fall, peak := isqrt w.peak2, axis := some w.axis, overs := w.overs, rebounds := w.rebounds }

/-- R146, in IMPACT. `last` is the previous accepted sample; whether it was high is judged by the present impact threshold (DESIGN CHOICE,
log entry 40). -/
def Motion.inImpact (m : Motion) (last : Option Sample) (t : Sample) (d : Nat) : Motion × Handed :=
  match m.window with
  | none => (m, {})
  | some w =>
    let w := w.next t d (m.high t) (last.any m.high)
    if 32 ≤ w.elapsed then
      ({ m with detector := .settle, stillness := 0, window := none, finished := some w.finish },
        { remove := w.kind == .drop, done := some w.finish })
    else ({ m with window := some w }, {})

/-- R143 to R147. An accepted sample is applied to the detector; d is its sequence difference. -/
def Motion.apply (m : Motion) (last : Option Sample) (t : Sample) (d : Nat) : Motion × Handed :=
  match m.detector with
  | .idle => m.inIdle t
  | .candidate => m.inCandidate t d
  | .falling => m.inFalling t d
  | .impact => m.inImpact last t d
  | .settle => m.inSettle t d

/-! ### What the detector hands on -/

/-- R146, R148, R161. The hand-over to ICL and the removal of FREEFALL. Where the removal would empty the hold set and the record places
POST_IMPACT, either may be taken first and the order tells (section 1.7): it is free (log entry 3). -/
def State.finishFall (s : State) (done : Option Finished) (remove : Bool) : State :=
  match done with
  | none => s
  | some f =>
    if remove then
      if Nat.ble 2 (s.icl.severity f) && s.path.holds.freefall && (s.path.holds.put .freefall false).isEmpty then
        if Config.order s.turn then (s.nextTurn.logImpact f).removeHold .freefall
        else (s.nextTurn.removeHold .freefall).logImpact f
      else (s.logImpact f).removeHold .freefall
    else s.logImpact f

/-- R145 to R148. A park request, the FREEFALL hold, the finished measurement, the return for PARK. -/
def State.handMotion (s : State) (h : Handed) : State :=
  let s1 := if h.park then s.parkRequest else s
  let s2 := if h.place then s1.placeHold .freefall else s1
  let s3 := s2.finishFall h.done h.remove
  if h.home then s3.autoRelease else s3

/-- The sequence difference of a read: 1 for the first after power-on reset or a stall (R140). -/
def Motion.difference (m : Motion) (seq : Byte) : Nat :=
  if m.fresh then 1
  else match m.last with
    | some t => seqDiff seq t.seq
    | none => 1

/-- R144. The sample ends a candidate run: the detector returns to its origin, whatever state the sample then brings. -/
def Motion.breaksRun (m : Motion) (t : Sample) (d : Nat) : Bool := m.detector == .candidate && !(m.low t && d == 1)

/-- R140, R141, R153. An accepted sample. The page is rewritten where the detector state changes, be it to its origin and back into
CANDIDATE, and at the end of a stall: once, also where the sample is both (DEDUCED, log entry 15). -/
def State.acceptSample (s : State) (t : Sample) (d : Nat) : State :=
  let m := { s.mot with
    last := some t, fresh := false, stalled := false, stallTimer := some (s.timer Config.motionStall)
    missed := min 65535 (s.mot.missed + (d - 1)) }
  let r := m.apply s.mot.last t d
  let s1 := { s with mot := r.1 }
  (if r.1.detector != s.mot.detector || m.breaksRun t d || s.mot.stalled then s1.rewriteMotion else s1).handMotion r.2

/-- R140. A read transaction has completed. -/
def State.motionRead (s : State) (seq : Byte) (x y z : Half) : State :=
  let d := s.mot.difference seq
  let s1 := { s with mot := { s.mot with reading := false } }
  if d = 0 then s1 else s1.acceptSample (sampleOf seq x y z) d

/-- R141, R153. The stall timer has run out: IDLE, every run and count 0, no window, and no last sample (R140; log entry 23). The page is
rewritten once, also where the stall takes the detector to IDLE from another state (DEDUCED, log entry 15). -/
def State.motionStall (s : State) : State :=
  let s1 := { s with mot := { s.mot with
    detector := .idle, origin := none, candRun := 0, fall := 0, pendingNormal := 0, quiet := 0, window := none, stillness := 0
    missed := 0, last := none, stalled := true, stallTimer := none, fresh := true } }
  ((s1.rewriteMotion).raise .sensorFault).removeHold .freefall

end Sys2Proof.Machine
end

