-- ==== Sys2Proof/Machine/Operands.lean ====
section
/-! DEFINITION. The operands of a card: its kind, tag and parameters as they stand in the slot (R171, R185), and the answer that an
owner gives. -/

namespace Sys2Proof.Machine

/-- The card kinds of section 11.5. -/
inductive CardKind where
  | setPanel
  | setCurve
  | setBrightness
  | setLight
  | setLoad
  | setBaseLoad
  | setPowerPolicy
  | setSourceTrip
  | setCharge
  | setThermal
  | setMotion
  | setClassifier
  | setHold
  | setGauge
  | releaseBay
  | identifyPack
  | park
  | releasePark
deriving DecidableEq, Repr

/-- The kind codes of section 13.4; a code that the table does not list is no kind (R174). -/
def CardKind.ofCode : Nat → Option CardKind
  | 0x01 => some .setPanel
  | 0x02 => some .setCurve
  | 0x03 => some .setBrightness
  | 0x04 => some .setLight
  | 0x05 => some .setLoad
  | 0x06 => some .setBaseLoad
  | 0x07 => some .setPowerPolicy
  | 0x08 => some .setSourceTrip
  | 0x09 => some .setCharge
  | 0x0A => some .setThermal
  | 0x0B => some .setMotion
  | 0x0C => some .setClassifier
  | 0x0D => some .setHold
  | 0x0E => some .setGauge
  | 0x10 => some .releaseBay
  | 0x11 => some .identifyPack
  | 0x12 => some .park
  | 0x13 => some .releasePark
  | _ => none

/-- The owner field of a slot. -/
def State.cardOwner (s : State) (slot : BitVec 5) : Nat := (s.byte (Mem.slot slot)).toNat

/-- The kind of the card in a slot; `none` where the table does not list its code. -/
def State.cardKind (s : State) (slot : BitVec 5) : Option CardKind := CardKind.ofCode (s.byte (Mem.slot slot + 1)).toNat

/-- The tag of the card in a slot. -/
def State.cardTag (s : State) (slot : BitVec 5) : Half := BitVec.ofNat 16 (s.num (Mem.slot slot + 2) 2)

/-- A parameter: `n` bytes at an offset of the slot, little-endian. -/
def State.param (s : State) (slot : BitVec 5) (offset n : Nat) : Nat := s.num (Mem.slot slot + offset) n

/-- A signed two-byte parameter. -/
def State.paramSigned (s : State) (slot : BitVec 5) (offset : Nat) : Int := signed16 (s.param slot offset 2)

/-- What an owner answers: the result, the detail (0 unless its rule gives another) and the result fields. -/
structure Answer where
  result : Result
  detail : Nat := 0
  fields : Fields := []
deriving DecidableEq, Repr

/-- R174. OK, or CLAMPED where a scalar was taken at the edge of its range. -/
def okOrClamped (clamped : Bool) : Result := if clamped then .clamped else .ok

/-- R174. A structural error. -/
def badParam : Answer := { result := .badParam }

end Sys2Proof.Machine
end

