-- ==== Sys2Proof/Machine/Inputs.lean ====
section
/-! DEFINITION. What an input to SMON does: a comparator's trip event (R4, R5) and the inlet's presence. A card may cause the first
(R3), so these stand before the cards. -/

namespace Sys2Proof.Machine

/-- R5, R15, R22, R73. IN's presence changes, its class with it: one report to BUDGET for both (DESIGN CHOICE, log entry 47). -/
def State.inletPresence (s : State) (p : Presence) (settle : Option Timer) (cls : Option AdapterClass) : State :=
  let s1 := { s with smon := { s.smon with inlet := { s.smon.inlet with presence := p }, settle, adapter := cls } }
  ((s1.raise .sourceChange).report (.evaluate false)).report .recompute

/-- R5. IN's comparator goes ABOVE. -/
def State.inletRises (s : State) : State :=
  if s.smon.inlet.presence = .absent then s.inletPresence .settling (some (s.timer Config.inletSettle)) none else s

/-- R5. IN's comparator goes BELOW. -/
def State.inletFalls (s : State) : State :=
  if s.smon.inlet.presence = .absent then s else s.inletPresence .absent none none

/-- R4. A trip event: the new output is recorded, SOURCE_CHANGE is raised, IN's presence moves, the loss of a feeding source starts a
rescue, and any other change an evaluation. -/
def State.tripEvent (s : State) (x : Source) (above : Bool) : State :=
  let s1 := (s.modSource x (fun e => { e with above })).raise .sourceChange
  let s2 := match x, above with
    | .inlet, true => s1.inletRises
    | .inlet, false => s1.inletFalls
    | .packA, _ => s1
    | .packB, _ => s1
  if !above && (s.source x).closed then s2.rescue x else s2.evaluate false

/-- R4. A comparator output; one that has not changed is no trip event. -/
def State.comparatorReads (s : State) (x : Source) (above : Bool) : State :=
  if (s.source x).above = above then s else s.tripEvent x above

/-- R3. A new trip setting for a source, and the output that the comparator gives at the source's voltage under it. -/
def State.setTrip (s : State) (x : Source) (high : Bool) (code mv : Nat) : State :=
  let s1 := s.modSource x (fun e => { e with tripHigh := high, tripCode := code })
  s1.nextTurn.comparatorReads x (s1.comparator x mv)

end Sys2Proof.Machine
end

