-- ==== Sys2Proof/Machine/Cards.lean ====
section
/-! DEFINITION. The work of each card kind by its owner: the checks, the adjustments, what is installed and done, and the answer
(sections 11.5 and 13.4 and each owner's rule). -/

namespace Sys2Proof.Machine

/-! ### BLD and ALS -/

/-- R121. -/
def State.cardSetPanel (s : State) (n : BitVec 5) : State × Answer :=
  let p := s.param n 0x08 2
  let full := s.param n 0x0A 2
  let norm := s.param n 0x0C 2
  let dMin := s.param n 0x0E 2
  let rise := s.param n 0x10 2
  let fall := s.param n 0x12 2
  let p' := clampNat 1000 30000 p
  let full' := clampNat 100 2000 full
  let norm' := min norm full'
  let dMin' := clampNat 1 255 dMin
  let rise' := clampNat 1 255 rise
  let fall' := clampNat 1 255 fall
  let clamped := p' != p || full' != full || norm' != norm || dMin' != dMin || rise' != rise || fall' != fall
  let s1 := s.derive (fun b =>
    { b with power := p', nFull := full', nNorm := norm', dMin := dMin', riseStep := rise', fallStep := fall' })
  (s1, { result := okOrClamped clamped
         fields := [(0x08, u16 p'), (0x0A, u16 full'), (0x0C, u16 norm'), (0x0E, u16 dMin'), (0x10, u16 rise'),
           (0x12, u16 fall'), (0x14, u16 s1.bld.normDuty)] })

/-- The curve points of a card: lux in bits 0 to 17, nits in bits 18 to 31 (R185). -/
def State.cardPoints (s : State) (n : BitVec 5) (count : Nat) : List CurvePoint :=
  (List.range count).map (fun i =>
    let w := s.param n (0x0C + 4 * i) 4
    { lux := w % 262144, nits := w / 262144 })

/-- R123. The index of the first point with a fault, from index i on; `before` is the previous point's lux. -/
def curveFault : List CurvePoint → Nat → Option Nat → Option Nat
  | [], _, _ => none
  | p :: ps, i, before =>
    if p.lux % 2 = 1 ∨ 131070 < p.lux then some i
    else if before.any (fun l => Nat.ble p.lux l) then some i
    else if 2000 < p.nits then some i
    else curveFault ps (i + 1) (some p.lux)

/-- R123. -/
def State.cardSetCurve (s : State) (n : BitVec 5) : State × Answer :=
  let count := s.param n 0x08 1
  if count < 2 ∨ 12 < count then (s, { result := .badParam, detail := 0xFF })
  else
    let points := s.cardPoints n count
    match curveFault points 0 none with
    | some i => (s, { result := .badParam, detail := i })
    | none => (s.derive (fun b => { b with curve := points }), { result := .ok, detail := count })

/-- R124. -/
def State.cardSetBrightness (s : State) (n : BitVec 5) : State × Answer :=
  let manual := s.param n 0x0A 2
  let offset := s.paramSigned n 0x0C
  match BacklightMode.ofCode (s.param n 0x08 1) with
  | none => (s, badParam)
  | some mode =>
    let manual' := min manual 2000
    let offset' := clampInt (-500) 500 offset
    let s1 := s.derive (fun b => { b with mode, manual := manual', offset := offset' })
    (s1, { result := okOrClamped (manual' != manual || offset' != offset)
           fields := [(0x08, u8 mode.code), (0x0A, u16 manual'), (0x0C, i16 offset'), (0x0E, u16 s1.bld.target),
             (0x10, u16 s1.bld.requested), (0x12, u16 s1.bld.ceiling), (0x14, u16 s1.bld.present),
             (0x18, u32 s1.bld.lastGrant)] })

/-- R119. -/
def State.cardSetLight (s : State) (n : BitVec 5) : State × Answer :=
  let rejection := s.param n 0x08 2
  let rise := s.param n 0x0A 1
  let fall := s.param n 0x0B 1
  let delay := s.param n 0x0C 2
  let rejection' := min rejection 255
  let rise' := clampNat 1 16 rise
  let fall' := clampNat 1 16 fall
  let delay' := clampNat 5 300 delay
  let clamped := rejection' != rejection || rise' != rise || fall' != fall || delay' != delay
  let s1 := s.setAls (fun l => { l with rejection := rejection', rise := rise', fall := fall' })
  ((s1.bldDelay delay').rewriteLight,
    { result := okOrClamped clamped
      fields := [(0x08, u16 rejection'), (0x0A, u8 rise'), (0x0B, u8 fall'), (0x0C, u16 delay'), (0x0E, u8 s.als.gain),
        (0x0F, yesNo s.als.fault), (0x10, u32 s.als.raw), (0x14, u32 s.als.f)] })

/-! ### BUDGET, PATH, SMON, CHG -/

/-- R71. -/
def State.cardSetLoad (s : State) (n : BitVec 5) : State × Answer :=
  let index := s.param n 0x08 1
  let priority := s.param n 0x09 1
  let request := s.param n 0x0C 4
  let floor := s.param n 0x10 4
  if index < 4 ∨ 11 < index then (s, badParam)
  else
    let priority' := min priority 6
    let request' := min request 60000
    let floor' := min floor request'
    let s1 := (s.modEntry index (fun e =>
      { e with priority := priority', request := request', floor := floor' })).recompute false
    (s1, { result := okOrClamped (priority' != priority || request' != request || floor' != floor)
           fields := [(0x08, u8 index), (0x09, u8 priority'), (0x0C, u32 request'), (0x10, u32 floor'),
             (0x14, u32 (s1.budget.entry index).grant), (0x18, u8 (s1.budget.entry index).state.code)] })

/-- R67. -/
def State.cardSetBaseLoad (s : State) (n : BitVec 5) : State × Answer :=
  let base := s.param n 0x08 4
  let base' := min base 200000
  let s1 := { s with budget := { s.budget with base := base' } }.recompute false
  (s1, { result := okOrClamped (base' != base), fields := [(0x08, u32 base'), (0x0C, u32 s1.budget.headroom)] })

/-- R12. An adapter override is 0 or lies within 10,000 to 200,000 mW. -/
def clampOverride (n : Nat) : Nat := if n = 0 then 0 else clampNat 10000 200000 n

/-- R12, R66, R80. What an accepted SET_POWER_POLICY card causes: BUDGET's recompute, with a recheck where a bay is PREPARING, and PATH's
evaluation. The rules give no order and it shows where the evaluation changes the feeding set: it is free (log entry 3). Where PATH is
first, all that its evaluation reports is taken before the recompute. -/
def State.policyTaken (s : State) : State :=
  if Config.order s.turn then (s.nextTurn.recompute true).evaluate true else (s.nextTurn.evaluate true).settle.recompute true

/-- R12, R6, R66, R59. All settings are installed, then `State.policyTaken`. A card answered BAD_PARAM changes nothing and causes no recheck
(DEDUCED, log entry 38). -/
def State.cardSetPowerPolicy (s : State) (n : BitVec 5) : State × Answer :=
  let reserve := s.param n 0x09 1
  let margin := s.param n 0x0A 1
  let window := s.param n 0x0B 1
  let swap := s.param n 0x0C 2
  let override := s.param n 0x10 4
  match DischargeMode.ofCode (s.param n 0x08 1) with
  | none => (s, badParam)
  | some mode =>
    let reserve' := min reserve 50
    let margin' := min margin 30
    let window' := clampNat 5 60 window
    let swap' := min swap 20000
    let override' := clampOverride override
    let clamped := reserve' != reserve || margin' != margin || window' != window || swap' != swap || override' != override
    let s1 := { s with
      path := { s.path with discharge := mode, reserve := reserve' }
      budget := { s.budget with margin := margin', swapMargin := swap' }
      bayc := { s.bayc with window := window' }
      smon := { s.smon with override := override' } }
    (s1.policyTaken,
      { result := okOrClamped clamped
        fields := [(0x08, u8 mode.code), (0x09, u8 reserve'), (0x0A, u8 margin'), (0x0B, u8 window'), (0x0C, u16 swap'),
          (0x10, u32 override')] })

/-- R3. -/
def State.cardSetSourceTrip (s : State) (n : BitVec 5) (supply : Supply) : State × Answer :=
  let code := s.param n 0x0A 1
  match Source.ofCode (s.param n 0x08 1), twoOfCode (s.param n 0x09 1) with
  | some x, some high =>
    let code' := min code 31
    (s.setTrip x high code' (Supply.get supply x),
      { result := okOrClamped (code' != code), fields := [(0x08, u8 (Source.code x)), (0x09, u8 (twoCode high)), (0x0A, u8 code')] })
  | _, _ => (s, badParam)

/-- R86. -/
def State.cardSetCharge (s : State) (n : BitVec 5) : State × Answer :=
  let std := s.param n 0x0C 4
  let fast := s.param n 0x10 4
  match yesNoOfCode (s.param n 0x08 1), yesNoOfCode (s.param n 0x09 1) with
  | some enabled, some fastAllowed =>
    let std' := clampNat 5000 60000 std
    let fast' := clampNat std' 90000 fast
    let s1 := { s with chg := { s.chg with enabled, fastAllowed, stdRate := std', fastRate := fast' } }.chgEvaluate
    (s1, { result := okOrClamped (std' != std || fast' != fast)
           fields := [(0x08, yesNo enabled), (0x09, yesNo fastAllowed), (0x0C, u32 std'), (0x10, u32 fast'),
             (0x14, u8 s1.chg.state.code), (0x15, optCode Bay.code s1.chg.bay), (0x18, u32 s1.chg.set)] })
  | _, _ => (s, badParam)

/-! ### THERM, MOT, ICL, PATH's hold, GLU -/

/-- R104. A zone value that names no zone, and trips that are not strictly increasing after their adjustment, are refused. The page is
rewritten after every card that is taken (R107). -/
def State.cardSetThermal (s : State) (n : BitVec 5) : State × Answer :=
  let a := s.paramSigned n 0x0A
  let b := s.paramSigned n 0x0C
  let c := s.paramSigned n 0x0E
  let hyst := s.param n 0x10 2
  let a' := clampInt (-400) 1250 a
  let b' := clampInt (-400) 1250 b
  let c' := clampInt (-400) 1250 c
  let hyst' := min hyst 100
  match ZoneName.ofCode (s.param n 0x08 1) with
  | none => (s.rewriteThermal, badParam)
  | some z =>
    if a' < b' ∧ b' < c' then
      let r := (s.therm.zone z).withTrips a' b' c' hyst'
      (s.zoneInstall z r,
        { result := okOrClamped (a' != a || b' != b || c' != c || hyst' != hyst)
          fields := [(0x08, u8 (s.param n 0x08 1)), (0x0A, i16 a'), (0x0C, i16 b'), (0x0E, i16 c'), (0x10, u16 hyst'),
            (0x12, u8 r.level), (0x13, u8 (setBits r.temp.isSome r.fault false false)), (0x14, i16 (r.temp.getD 0))] })
    else (s.rewriteThermal, badParam)

/-- R149. -/
def State.cardSetMotion (s : State) (n : BitVec 5) : State × Answer :=
  let ff := s.param n 0x08 2
  let count := s.param n 0x0A 2
  let imp := s.param n 0x0C 2
  match yesNoOfCode (s.param n 0x0E 1), yesNoOfCode (s.param n 0x0F 1) with
  | some park, some auto =>
    let ff' := clampNat 100 800 ff
    let count' := clampNat 16 255 count
    let imp' := clampNat 1250 15000 imp
    let s1 := { s with mot := { s.mot with
      ffThreshold := ff', ffCount := count', impThreshold := imp', parkOnShock := park, autoRelease := auto } }
    (s1.rewriteMotion,
      { result := okOrClamped (ff' != ff || count' != count || imp' != imp)
        fields := [(0x08, u16 ff'), (0x0A, u16 count'), (0x0C, u16 imp'), (0x0E, yesNo park), (0x0F, yesNo auto),
          (0x10, u8 s.mot.detector.code)] })
  | _, _ => (s.rewriteMotion, badParam)

/-- One classifier rule replaced. -/
def Icl.setRule (c : Icl) (k : Nat) (r : ClassRule) : Icl :=
  match k with
  | 0 => { c with rule0 := r }
  | 1 => { c with rule1 := r }
  | 2 => { c with rule2 := r }
  | _ => { c with rule3 := r }

/-- R160. -/
def State.cardSetClassifier (s : State) (n : BitVec 5) : State × Answer :=
  let k := s.param n 0x08 1
  let severity := s.param n 0x0D 1
  let value := s.param n 0x0E 2
  match yesNoOfCode (s.param n 0x09 1), ClassField.ofCode (s.param n 0x0A 1), yesNoOfCode (s.param n 0x0B 1),
      yesNoOfCode (s.param n 0x0C 1) with
  | some enable, some field, some invert, some chain =>
    if 3 < k then (s.rewriteMotion, badParam)
    else
      let severity' := min severity 3
      let s1 := { s with icl := s.icl.setRule k { enable, field, value, invert, chain, severity := severity' } }
      (s1.rewriteMotion,
        { result := okOrClamped (severity' != severity)
          fields := [(0x08, u8 k), (0x09, yesNo enable), (0x0A, u8 field.code), (0x0B, yesNo invert), (0x0C, yesNo chain),
            (0x0D, u8 severity'), (0x0E, u16 value)] })
  | _, _, _, _ => (s.rewriteMotion, badParam)

/-- R177. -/
def State.cardSetHold (s : State) (n : BitVec 5) : State × Answer :=
  match yesNoOfCode (s.param n 0x08 1) with
  | none => (s, badParam)
  | some asked =>
    let s1 := if asked then s.placeHold .software else s.removeHold .software
    (s1, { result := .ok, fields := [(0x09, u8 s1.path.holds.code), (0x0A, u8 s1.path.mode.code)] })

/-- R31. A running interval timer is measured against a new interval from its start; where that much time has passed, the poll
begins. -/
def State.newInterval (s : State) (x : Bay) (interval : Nat) : State :=
  match (s.pack x).interval with
  | none => s
  | some t =>
    if interval ≤ t.elapsed s.clock then s.beginPoll x
    else s.modPack x (fun p => { p with interval := some (t.withPeriod interval) })

/-- R31. -/
def State.cardSetGauge (s : State) (n : BitVec 5) : State × Answer :=
  let interval := s.param n 0x08 2
  let limit := s.param n 0x0A 1
  let interval' := clampNat 250 10000 interval
  let limit' := min limit 7
  let s1 := { s with glu := { s.glu with pollInterval := interval', retryLimit := limit' } }
  ((s1.newInterval .a interval').newInterval .b interval',
    { result := okOrClamped (interval' != interval || limit' != limit), fields := [(0x08, u16 interval'), (0x0A, u8 limit')] })

/-- R151. RELEASE_PARK, where no PARK operation runs. -/
def State.cardReleasePark (s : State) : State × Answer :=
  if s.mot.detector = .falling ∨ s.mot.detector = .impact then
    (s.rewriteMotion, { result := .refusedState, fields := parkFields s.park })
  else
    let s1 := ((s.setPark { s.park with latch := false }).parkRelease).rewriteMotion
    (s1, { result := .ok, fields := parkFields s1.park })

/-! ### The long kinds: the owner's part, once the walker has claimed the resource (R175) -/

/-- R34. IDENTIFY_PACK is handed to GLU. -/
def State.startIdentify (s : State) (x : Bay) : State :=
  match (s.bay x).state with
  | .seated =>
    if (s.pack x).op.isSome then s.modPack x (fun p => { p with identWaiting := true }) else s.beginIdent x .identCard
  | .unusable => ((s.modPack x (fun p => { p with link := .ident })).beginIdent x .identCard).handLink x
  | _ => s.complete (bayResource x) .refusedState 0 (identFields ⟨0, 0, 0⟩)

/-- R152. PARK is handed to Park Control. -/
def State.startPark (s : State) : State :=
  let s1 := s.parkRequest.rewriteMotion
  if s1.park.state = .parked then s1.endPark .ok else s1

end Sys2Proof.Machine
end

