-- ==== Sys2Proof/Machine/CardWalker.lean ====
section
/-! DEFINITION. WALK (sections 11.4 and 11.5): takeable slots, the taking of one card, the waiting and the waking, the CONTROL
register, and the platform reset (R179). -/

namespace Sys2Proof.Machine

/-- A resource entry holds the slot. -/
def Resource.holds (r : Resource) (slot : BitVec 5) : Bool :=
  match r with
  | .held n _ => n == slot
  | .free => false
  | .orphaned => false

/-- R172. The slot is takeable: its owner reads POSTED and no resource entry holds it. -/
def State.takeable (s : State) (slot : BitVec 5) : Bool :=
  s.cardOwner slot == 1 && !(s.walk.bayA.holds slot || s.walk.bayB.holds slot || s.walk.park.holds slot)

/-- R174. An immediate card is executed whole: its owner's work, every report that it makes, and the return. -/
def State.immediate (slot : BitVec 5) (tag : Half) (r : State × Answer) : State :=
  r.1.settle.cardReturn slot tag r.2.result r.2.detail r.2.fields

/-- R175. A long card: BUSY where its resource is not FREE; else the entry becomes HELD and the request goes to the owner. A card that
the owner has not settled at once becomes ACTIVE. -/
def State.claim (s : State) (slot : BitVec 5) (tag : Half) (n : ResourceName) (request : State → State) : State :=
  if s.walk.resource n = .free then
    let s1 := request (s.setResource n (.held slot tag))
    if s1.walk.resource n = .held slot tag then s1.setOwner slot 2 else s1
  else s.cardReturn slot tag .busy 0 []

/-- R175. A long card that names a bay: a bay that is neither A nor B is refused first. -/
def State.claimBay (s : State) (slot : BitVec 5) (tag : Half) (request : Bay → State → State) : State :=
  match Bay.ofCode (s.param slot 0x08 1) with
  | some x => s.claim slot tag (bayResource x) (request x)
  | none => s.cardReturn slot tag .badParam 0 []

/-- R175, R153. A PARK or RELEASE_PARK card that finds the resource PARK taken is answered BUSY; the motion page is rewritten after it like
after any card of these kinds. -/
def State.parkBusy (s : State) (slot : BitVec 5) (tag : Half) : State := s.rewriteMotion.cardReturn slot tag .busy 0 []

/-- R172, R174, R175. The card in a slot is dispatched by its kind. -/
def State.workCard (s : State) (slot : BitVec 5) (supply : Supply) : State :=
  let tag := s.cardTag slot
  match s.cardKind slot with
  | some .setPanel => State.immediate slot tag (s.cardSetPanel slot)
  | some .setCurve => State.immediate slot tag (s.cardSetCurve slot)
  | some .setBrightness => State.immediate slot tag (s.cardSetBrightness slot)
  | some .setLight => State.immediate slot tag (s.cardSetLight slot)
  | some .setLoad => State.immediate slot tag (s.cardSetLoad slot)
  | some .setBaseLoad => State.immediate slot tag (s.cardSetBaseLoad slot)
  | some .setPowerPolicy => State.immediate slot tag (s.cardSetPowerPolicy slot)
  | some .setSourceTrip => State.immediate slot tag (s.cardSetSourceTrip slot supply)
  | some .setCharge => State.immediate slot tag (s.cardSetCharge slot)
  | some .setThermal => State.immediate slot tag (s.cardSetThermal slot)
  | some .setMotion => State.immediate slot tag (s.cardSetMotion slot)
  | some .setClassifier => State.immediate slot tag (s.cardSetClassifier slot)
  | some .setHold => State.immediate slot tag (s.cardSetHold slot)
  | some .setGauge => State.immediate slot tag (s.cardSetGauge slot)
  | some .releaseBay => s.claimBay slot tag (fun x s => s.releaseRequest x (.card slot))
  | some .identifyPack => s.claimBay slot tag (fun x s => s.startIdentify x)
  | some .park => if s.walk.park = .free then s.claim slot tag .park State.startPark else s.parkBusy slot tag
  | some .releasePark => if s.walk.park = .free then State.immediate slot tag s.cardReleasePark else s.parkBusy slot tag
  | none => s.cardReturn slot tag .unknownKind 0 []

/-- WALK's record is changed. -/
def State.setWalk (s : State) (f : Walker → Walker) : State := { s with walk := f s.walk }

/-- The recheck timer of an interval in 10 ms, none where it is off (R170). -/
def State.recheckTimer (s : State) (interval : Nat) : Option Timer :=
  if interval = 0 then none else some (s.timer (10 * interval))

/-- R172. The walker enters WAITING at its index: LIST_IDLE where the taken flag is set, which is cleared, and the recheck timer where
the interval is not off. -/
def State.enterWaiting (s : State) : State :=
  (s.setWalk (fun w => { w with state := .waiting, taken := false, recheckTimer := s.recheckTimer w.recheck })).writeWalker
    |>.raiseIf s.walk.taken .listIdle

/-- R172. The walker in RUNNING looks at its slot: one that is not takeable makes it wait. -/
def State.look (s : State) : State := if s.takeable s.walk.index then s.writeWalker else s.enterWaiting

/-- R172. The walker takes the card at its index, works it, advances, and looks at the next slot. -/
def State.takeOne (s : State) (supply : Supply) : State :=
  let slot := s.walk.index
  let s1 := (s.setWalk (fun w => { w with taken := true })).workCard slot supply
  (s1.setWalk (fun w => { w with index := slot + 1 })).look

/-- R173. The walker enters RUNNING. A recheck timer that runs is discarded: R170 says so for the way from WAITING to STOPPED, and the
timer is one of WAITING (DEDUCED, log entry 45). -/
def State.enterRunning (s : State) : State :=
  (s.setWalk (fun w => { w with state := .running, recheckTimer := none })).writeWalker

/-- R173. A WAITING walker is nudged. -/
def State.nudge (s : State) (supply : Supply) : State :=
  if s.walk.state = .waiting && s.takeable s.walk.index then s.enterRunning.takeOne supply else s

/-- R173. The recheck timer has run out: the walker takes the card at its slot, or the timer restarts. -/
def State.recheckLook (s : State) (supply : Supply) : State :=
  if s.takeable s.walk.index then s.enterRunning.takeOne supply
  else s.setWalk (fun w => { w with recheckTimer := s.recheckTimer w.recheck })

/-- R172. The taking of a card of a kind by the RUNNING walker: nothing where the card at its slot is of another kind; a slot that is no
longer takeable makes the walker wait (log entry 11). -/
def State.cardRow (s : State) (kind : Option CardKind) (supply : Supply) : State :=
  if s.walk.state = .running then
    if s.takeable s.walk.index then
      if s.cardKind s.walk.index = kind then s.takeOne supply else s
    else s.enterWaiting
  else s

/-! ### Platform reset (R179) -/

/-- R179, step 2. A HELD entry becomes ORPHANED and its card is returned ABORTED. -/
def State.orphan (s : State) (n : ResourceName) : State :=
  match s.walk.resource n with
  | .held slot tag => (s.setResource n .orphaned).cardReturn slot tag .aborted 0 []
  | .free => s
  | .orphaned => s

/-- The entry is HELD. -/
def Resource.isHeld : Resource → Bool
  | .held _ _ => true
  | .free => false
  | .orphaned => false

/-- R179. A platform reset. -/
def State.platformReset (s : State) : State :=
  let returned := s.walk.bayA.isHeld || s.walk.bayB.isHeld || s.walk.park.isHeld
  let s1 := s.setWalk (fun w => { w with state := .stopped, index := 0, taken := false, recheckTimer := none, run := false, recheck := 0 })
  let s2 := (((s1.orphan .bayA).orphan .bayB).orphan .park)
  ({ s2 with attn := { bits := s2.levelWord, mask := 0 } }.raiseIf returned .cardDone).writeWalker

/-! ### The CONTROL register (R170) -/

/-- R170. The RECHECK field of a value, at most 100. -/
def recheckField (v : Half) : Nat := min 100 (v.toNat / 256)

/-- R170. RUN and RECHECK are installed and the walker acts on them. -/
def State.installControl (s : State) (run : Bool) (recheck : Nat) (supply : Supply) : State :=
  let s1 := s.setWalk (fun w => { w with run, recheck })
  match s.walk.state, run with
  | .stopped, true =>
    if s.takeable s.walk.index then s1.enterRunning.takeOne supply else s1.enterRunning.enterWaiting
  | .stopped, false => s1
  | .running, true => s1
  | .running, false => (s1.setWalk (fun w => { w with state := .stopped })).writeWalker
  | .waiting, true => s1.setWalk (fun w => { w with recheckTimer := s.recheckTimer recheck })
  | .waiting, false => (s1.setWalk (fun w => { w with state := .stopped, recheckTimer := none })).writeWalker

/-- R170. A write of CONTROL: with SOFT_RESET set a platform reset, else RUN and RECHECK. -/
def State.controlWrite (s : State) (v : Half) (supply : Supply) : State :=
  if v.getLsbD 1 then s.platformReset else s.installControl (v.getLsbD 0) (recheckField v) supply

/-- R169. What CONTROL reads. -/
def Walker.controlWord (w : Walker) : Half := BitVec.ofNat 16 (w.run.toNat + 256 * w.recheck)

end Sys2Proof.Machine
end

