-- ==== Sys2Proof/Machine/StartUp.lean ====
section
/-! DEFINITION. PSD and the power-on reset (chapter 12). -/

namespace Sys2Proof.Machine

/-- R180. The platform state that a pair of levels is taken as; the pair (1, 0) is illegal. -/
def platformOf (ps0 ps1 : Bool) : Option Platform :=
  match ps0, ps1 with
  | true, true => some .active
  | false, true => some .standby
  | false, false => some .off
  | true, false => none

/-- R181. A change of platform state is reported to ALS and BLD; between STANDBY and OFF neither changes anything (R118, R135). -/
def State.platformChanged (s : State) (was : Platform) : State :=
  if s.active then s.lightRun.derive id
  else if was = .active then s.lightStop.derive id
  else s

/-- R180. PSD takes its candidate. The control block is written before the bit is raised; the change is reported to ALS and BLD. -/
def State.takePlatform (s : State) (ps0 ps1 : Bool) : State :=
  let s1 := { s with psd := { s.psd with taken0 := ps0, taken1 := ps1, candidate := none, timer := none } }
  match platformOf ps0 ps1 with
  | none => (s1.writePlatform).raise .platformState
  | some p =>
    let s2 := { s1 with psd := { s1.psd with platform := p } }.writePlatform
    if p = s.psd.platform then s2 else (s2.raise .platformState).platformChanged s.psd.platform

/-- R180. The present levels become the candidate and the deglitch timer starts. -/
def State.psCandidate (s : State) (ps0 ps1 : Bool) : State :=
  { s with psd := { s.psd with line0 := ps0, line1 := ps1, candidate := some (ps0, ps1), timer := some (s.timer Config.deglitch) } }

/-- R183. HRST# goes low: its deglitch timer starts. -/
def State.hrstFalls (s : State) : State :=
  { s with psd := { s.psd with hrstLow := true, hrstTimer := some (s.timer Config.deglitch) } }

/-! ### Power-on reset (R182) -/

/-- R24. The source that PATH closes at start-up: the first, in the order IN, A, B, whose comparator reads ABOVE and, for a pack, whose
contact reads closed. -/
def State.firstSource (s : State) (pins : Pins) : Option Source :=
  if s.smon.inlet.above then some .inlet
  else if s.smon.packA.above && pins.detA then some .packA
  else if s.smon.packB.above && pins.detB then some .packB
  else none

/-- R24. The three comparators are read. -/
def State.readComparators (s : State) (v : Supply) : State :=
  let i := s.comparator .inlet v.inlet
  let a := s.comparator .packA v.packA
  let b := s.comparator .packB v.packB
  ((s.modSource .inlet (fun e => { e with above := i })).modSource .packA (fun e => { e with above := a })).modSource .packB
    (fun e => { e with above := b }) |>.nextTurn

/-- R24. An inlet that was not closed at start-up has no presence unless its comparator reads ABOVE, where it is closed; it is PRESENT
at once with its class measured. -/
def State.startInlet (s : State) (adpId : Nat) : State :=
  { s with smon := { s.smon with inlet := { s.smon.inlet with presence := .present }, adapter := some (adapterOf adpId) } }

/-- R24, R182 step 3. The first closure, or BROWNOUT. Where it is IN's, BUDGET has one report for IN's presence, its class and the feeding set
(R73 does not say whether they are one report: DESIGN CHOICE, log entry 47). -/
def State.startPath (s : State) (pins : Pins) : State :=
  let s1 := s.readComparators pins.supply
  match s1.firstSource pins with
  | some .inlet =>
    let s2 := s1.startInlet pins.adpId
    State.feedingChanged s2.feeding (s2.setSwitches (.single .inlet))
  | some x => State.feedingChanged s1.feeding (s1.setSwitches (.single x))
  | none => s1.enterBrownout

/-- R42, R182 step 4. The contact scan of one bay. -/
def State.scanBay (s : State) (x : Bay) (closed pressed : Bool) : State :=
  let s1 := s.modBay x (fun b => { b with contact := closed, buttonLine := pressed })
  if closed then
    if (s.source (packSource x)).closed then s1.enterIdentifying x false else s1.enterSettling x
  else s1

/-- R182 step 5. MOT makes its first read, THERM takes its first sampling, PSD makes the levels that it finds its first
candidate. -/
def State.startWatching (s : State) (pins : Pins) : State :=
  let s1 := { s with
    mot := { s.mot with reading := true, stallTimer := some (s.timer Config.motionStall) }
    park := { s.park with ack := pins.parkAck } }
  let s2 := (s1.thermSample pins.panel pins.charger pins.enclosure).psCandidate pins.ps0 pins.ps1
  if pins.hrstLow then s2.hrstFalls else s2

/-- R182. A power-on reset. The commands that wait and the model's turn counter are kept (log entry 5). Where a pack is closed, the hand-over
of its new link at step 4 rewrites the thermal page before the first sampling of step 5 does (DEDUCED, log entry 41). -/
def State.powerOn (s : State) (pins : Pins) : State :=
  let s0 := { State.reset with pending := s.pending, turn := s.turn }
  (((s0.startPath pins).scanBay .a pins.detA pins.btnA).scanBay .b pins.detB pins.btnB).startWatching pins

end Sys2Proof.Machine
end

