-- ==== Sys2Proof/Machine/PlatformCommands.lean ====
section
/-! DEFINITION. The commands of start-up and of the platform lines: power-on reset, HRST#, PS0 and PS1 (chapter 12). -/

namespace Sys2Proof.Machine

/-- POWER_ON_RESET (R182). -/
def execPowerOnReset (pins : Pins) (s : State) : Host.Outcome State Fault Refusal :=
  .next (State.commit { State.reset with pending := s.pending, turn := s.turn } (s.powerOn pins))

/-- HRST_CHANGE (R183). A return to high before the deglitch has run out does away with the low; a level that has not changed does
nothing. -/
def execHrstChange (low : Bool) (s : State) : Host.Outcome State Fault Refusal :=
  .next (if s.psd.hrstLow = low then s
    else if low then s.hrstFalls
    else { s with psd := { s.psd with hrstLow := false, hrstTimer := none } })

/-- HRST_DEGLITCH_EXPIRY (R183): a low that has stood for 2 ms is a platform reset. -/
def execHrstDeglitchExpiry (s : State) : Host.Outcome State Fault Refusal :=
  .next (match s.psd.hrstTimer with
    | some _ => { s with psd := { s.psd with hrstTimer := none } }.platformReset
    | none => s)

/-- PS_LINE_CHANGE (R180). -/
def execPsLineChange (ps0 ps1 : Bool) (s : State) : Host.Outcome State Fault Refusal :=
  .next (if s.psd.line0 = ps0 ∧ s.psd.line1 = ps1 then s else s.psCandidate ps0 ps1)

/-- PS_DEGLITCH_EXPIRY (R180). -/
def execPsDeglitchExpiry (s : State) : Host.Outcome State Fault Refusal :=
  .next (match s.psd.timer, s.psd.candidate with
    | some _, some c => State.commit s (s.takePlatform c.1 c.2)
    | _, _ => s)

end Sys2Proof.Machine
end

