-- ==== Sys2Proof/Machine/SourceCommands.lean ====
section
/-! DEFINITION. The events of the sources and of the power path (chapter 1). -/

namespace Sys2Proof.Machine

/-- R2. A reading within the ranges of the source table. -/
def recorded (r : Reading) : Nat × Int := (min r.mv 25500, clampInt (-32768) 32767 r.ma)

/-- R2. The three pairs of readings are recorded. -/
def State.recordReadings (s : State) (i a b : Reading) : State :=
  { s with smon := { s.smon with
    inlet := { s.smon.inlet with mv := (recorded i).1, ma := (recorded i).2 }
    packA := { s.smon.packA with mv := (recorded a).1, ma := (recorded a).2 }
    packB := { s.smon.packB with mv := (recorded b).1, ma := (recorded b).2 } } }

/-- R21. The term of one source in the measured load, mW. -/
def SourceEntry.load (e : SourceEntry) : Nat :=
  if e.closed && decide (0 < e.ma) then e.mv * e.ma.toNat / 1000 else 0

/-- R21. The measured load. -/
def Smon.load (m : Smon) : Nat := m.inlet.load + m.packA.load + m.packB.load

/-- R2, R21, R23, R76. One sense sample: the readings, the measured load, the budget page and the power page. -/
def State.senseSample (s : State) (i a b : Reading) : State :=
  let s1 := s.recordReadings i a b
  ({ s1 with path := { s1.path with measured := s1.smon.load } }.rewriteBudget).rewritePower

/-- SENSE_SAMPLE (R2, R21). -/
def execSenseSample (inlet packA packB : Reading) (s : State) : Host.Outcome State Fault Refusal :=
  .next (s.senseSample inlet packA packB)

/-- COMPARATOR_TRIP (R4). -/
def execComparatorTrip (src : Source) (above : Bool) (s : State) : Host.Outcome State Fault Refusal :=
  .next (State.commit s (s.comparatorReads src above))

/-- IN_SETTLE_EXPIRY (R5, R6): PRESENT, with the class that ADP_ID gives. -/
def execInSettleExpiry (adpId : Nat) (s : State) : Host.Outcome State Fault Refusal :=
  .next (match s.smon.settle with
    | some _ => State.commit s (s.inletPresence .present none (some (adapterOf adpId)))
    | none => s)

/-- TRANSFER_SETTLE_EXPIRY (R16). -/
def execTransferSettleExpiry (s : State) : Host.Outcome State Fault Refusal :=
  .next (match s.path.mode, s.path.transfer with
    | .making, some t => State.commit s (s.breakTransfer t)
    | _, _ => s)

/-- POST_IMPACT_EXPIRY (R17). -/
def execPostImpactExpiry (s : State) : Host.Outcome State Fault Refusal :=
  .next (match s.path.postImpact with
    | some _ => State.commit s (s.removeHold .postImpact)
    | none => s)

end Sys2Proof.Machine
end

