-- ==== Sys2Proof/Machine/PackCommands.lean ====
section
/-! DEFINITION. The events of the gauge links (chapter 2). -/

namespace Sys2Proof.Machine

/-- GAUGE_ATTEMPT_DONE (R27). -/
def execGaugeAttemptDone (bay : Bay) (value : Half) (alarms : Alarms) (s : State) : Host.Outcome State Fault Refusal :=
  .next (State.commit s (s.attemptGood bay value.toNat alarms))

/-- GAUGE_ATTEMPT_NAK (R27). -/
def execGaugeAttemptNak (bay : Bay) (s : State) : Host.Outcome State Fault Refusal :=
  .next (State.commit s (s.attemptBad bay))

/-- GAUGE_ATTEMPT_TIMEOUT (R27). -/
def execGaugeAttemptTimeout (bay : Bay) (s : State) : Host.Outcome State Fault Refusal :=
  .next (State.commit s (s.attemptBad bay))

/-- POLL_INTERVAL_EXPIRY (R31). -/
def execPollIntervalExpiry (bay : Bay) (s : State) : Host.Outcome State Fault Refusal :=
  .next (match (s.pack bay).interval with
    | some _ => State.commit s (s.beginPoll bay)
    | none => s)

end Sys2Proof.Machine
end

