-- ==== Sys2Proof/Machine/BayCommands.lean ====
section
/-! DEFINITION. The events of the bays and the swap procedure (chapter 3). -/

namespace Sys2Proof.Machine

/-- R43, R44, R60. The contact opens. -/
def State.contactOpens (s : State) (x : Bay) : State :=
  let s1 := s.modBay x (fun b => { b with contact := false })
  match (s.bay x).state with
  | .empty => s1
  | .settling => (s1.modBay x (fun b => { b with settle := none })).enterBay x .empty false
  | .identifying => s1.modBay x (fun b => { b with removal := some (s.timer Config.removalConfirm) })
  | .seated => s1.modBay x (fun b => { b with removal := some (s.timer Config.removalConfirm) })
  | .preparing => s1.modBay x (fun b => { b with removal := some (s.timer Config.removalConfirm) })
  | .released => s1.modBay x (fun b => { b with removal := some (s.timer Config.removalConfirm) })
  | .unusable => s1.modBay x (fun b => { b with removal := some (s.timer Config.removalConfirm) })

/-- R46, R60. The contact recloses before the removal is confirmed: a glitch, but in RELEASED none; there a deferred end of the window is
applied. -/
def State.recloses (s : State) (x : Bay) : State :=
  let s1 := s.modBay x (fun b => { b with removal := none })
  if (s.bay x).state = .released then (if (s.bay x).endDeferred then s1.closeWindow x else s1) else s1.glitch x

/-- R43, R44. The contact closes. -/
def State.contactCloses (s : State) (x : Bay) : State :=
  let s1 := s.modBay x (fun b => { b with contact := true })
  match (s.bay x).state, (s.bay x).removal with
  | .empty, _ => s1.enterSettling x
  | _, some _ => s1.recloses x
  | _, none => s1

/-- CONTACT_CHANGE (R43). A contact that has not changed does nothing. -/
def execContactChange (bay : Bay) (closed : Bool) (s : State) : Host.Outcome State Fault Refusal :=
  .next (if (s.bay bay).contact = closed then s
    else State.commit s (if closed then s.contactCloses bay else s.contactOpens bay))

/-- REMOVAL_CONFIRM_EXPIRY (R45). -/
def execRemovalConfirmExpiry (bay : Bay) (s : State) : Host.Outcome State Fault Refusal :=
  .next (match (s.bay bay).removal with
    | some _ => State.commit s (s.confirmRemoval bay)
    | none => s)

/-- BAY_SETTLE_EXPIRY (R44). -/
def execBaySettleExpiry (bay : Bay) (s : State) : Host.Outcome State Fault Refusal :=
  .next (match (s.bay bay).settle with
    | some _ => State.commit s (s.enterIdentifying bay true)
    | none => s)

/-- BUTTON_CHANGE (R49): each change of the line starts the debounce afresh. -/
def execButtonChange (bay : Bay) (pressed : Bool) (s : State) : Host.Outcome State Fault Refusal :=
  .next (if (s.bay bay).buttonLine = pressed then s
    else s.modBay bay (fun b => { b with buttonLine := pressed, debounce := some (s.timer Config.debounce) }))

/-- R49. The debounced button takes the line's level; from RELEASED to PRESSED it is a release request. -/
def State.debounced (s : State) (x : Bay) : State :=
  let b := s.bay x
  let s1 := s.modBay x (fun b => { b with debounce := none, pressed := b.buttonLine })
  if b.buttonLine && !b.pressed then s1.releaseRequest x .button else s1

/-- BUTTON_DEBOUNCE_EXPIRY (R49). -/
def execButtonDebounceExpiry (bay : Bay) (s : State) : Host.Outcome State Fault Refusal :=
  .next (match (s.bay bay).debounce with
    | some _ => State.commit s (s.debounced bay)
    | none => s)

/-- R56. The result at the prepare limit. -/
def State.limitResult (s : State) (x : Bay) : Result × Nat :=
  if !s.path.holds.isEmpty then (.held, 0)
  else if !s.lockGranted x then (.refusedSource, 4)
  else (.timeout, 0)

/-- PREPARE_LIMIT_EXPIRY (R56). -/
def execPrepareLimitExpiry (bay : Bay) (s : State) : Host.Outcome State Fault Refusal :=
  .next (match (s.bay bay).state, (s.bay bay).prepare with
    | .preparing, some _ =>
      State.commit s (s.abandonRelease bay .seated (s.limitResult bay).1 (s.limitResult bay).2)
    | _, _ => s)

/-- RELEASE_WINDOW_EXPIRY (R60). -/
def execReleaseWindowExpiry (bay : Bay) (s : State) : Host.Outcome State Fault Refusal :=
  .next (match (s.bay bay).state, (s.bay bay).window with
    | .released, some _ => State.commit s (s.endWindow bay)
    | _, _ => s)

end Sys2Proof.Machine
end

