-- ==== Sys2Proof/Machine/ChargeCommands.lean ====
section
/-! DEFINITION. The timed events of the charger and of the thermal monitor (chapters 5 and 6). -/

namespace Sys2Proof.Machine

/-- The kind of the rate settle that runs. -/
def Charger.settling (c : Charger) : Option SettleKind := c.settle.map (fun r => r.kind)

/-- RISING_SETTLE_EXPIRY (R92). -/
def execRisingSettleExpiry (s : State) : Host.Outcome State Fault Refusal :=
  .next (if s.chg.settling = some .rising then State.commit s s.chgRisen else s)

/-- FALLING_SETTLE_EXPIRY (R92, R84). -/
def execFallingSettleExpiry (s : State) : Host.Outcome State Fault Refusal :=
  .next (if s.chg.settling = some .falling then State.commit s s.chgFallen else s)

/-- THERMISTOR_SAMPLING (R98). -/
def execThermistorSampling (panel charger enclosure : Int) (s : State) : Host.Outcome State Fault Refusal :=
  .next (State.commit s (s.thermSample panel charger enclosure))

end Sys2Proof.Machine
end

