-- ==== Sys2Proof/Machine/LightCommands.lean ====
section
/-! DEFINITION. The events of the light unit and of the backlight driver (chapters 7 and 8). -/

namespace Sys2Proof.Machine

/-- LIGHT_START_DONE (R110): the integration begins. -/
def execLightStartDone (s : State) : Host.Outcome State Fault Refusal :=
  .next (if s.als.cycle = some .starting then
      s.setAls (fun l => { l with cycle := some .integrating, integration := some (s.timer Config.integration) })
    else s)

/-- INTEGRATION_EXPIRY (R110): the read transaction begins. -/
def execIntegrationExpiry (s : State) : Host.Outcome State Fault Refusal :=
  .next (if s.als.cycle = some .integrating then s.setAls (fun l => { l with cycle := some .reading, integration := none }) else s)

/-- LIGHT_READ_DONE (R110, R112 to R117). -/
def execLightReadDone (c i : Half) (s : State) : Host.Outcome State Fault Refusal :=
  .next (if s.als.cycle = some .reading then State.commit s (s.lightComplete c.toNat i.toNat) else s)

/-- LIGHT_TRANSACTION_NAK (R111). -/
def execLightTransactionNak (s : State) : Host.Outcome State Fault Refusal := .next s.lightTransactionFails

/-- LIGHT_TRANSACTION_TIMEOUT (R111). -/
def execLightTransactionTimeout (s : State) : Host.Outcome State Fault Refusal := .next s.lightTransactionFails

/-- LIGHT_WAIT_EXPIRY (R111): a new cycle begins. -/
def execLightWaitExpiry (s : State) : Host.Outcome State Fault Refusal :=
  .next (if s.als.cycle = some .waiting then s.setAls (fun l => { l with cycle := some .starting, wait := none }) else s)

/-- LIGHT_IDLE_DONE (R118). -/
def execLightIdleDone (s : State) : Host.Outcome State Fault Refusal := .next (if s.als.idling then s.lightIdleEnd else s)

/-- LIGHT_FAULT_TIMER_EXPIRY (R117). -/
def execLightFaultTimerExpiry (s : State) : Host.Outcome State Fault Refusal :=
  .next (match s.als.faultTimer with
    | some _ => s.lightFault
    | none => s)

/-- SLEW_TICK (R131): none is taken outside ACTIVE. -/
def execSlewTick (s : State) : Host.Outcome State Fault Refusal := .next (if s.active then State.commit s s.slew else s)

/-- TOKEN_RELEASE_EXPIRY (R134). -/
def execTokenReleaseExpiry (s : State) : Host.Outcome State Fault Refusal :=
  .next (match s.bld.release with
    | some _ => State.commit s s.bldTimeout
    | none => s)

end Sys2Proof.Machine
end

