-- ==== Sys2Proof/Machine/MotionCommands.lean ====
section
/-! DEFINITION. The events of the motion unit and of park control (chapter 9). -/

namespace Sys2Proof.Machine

/-- MOTION_READ_TICK (R140): a read transaction begins. -/
def execMotionReadTick (s : State) : Host.Outcome State Fault Refusal := .next { s with mot := { s.mot with reading := true } }

/-- MOTION_READ_DONE (R140 to R148). -/
def execMotionReadDone (seq : Byte) (x y z : Half) (s : State) : Host.Outcome State Fault Refusal :=
  .next (if s.mot.reading then State.commit s (s.motionRead seq x y z) else s)

/-- MOTION_STALL_EXPIRY (R141). -/
def execMotionStallExpiry (s : State) : Host.Outcome State Fault Refusal :=
  .next (match s.mot.stallTimer with
    | some _ => State.commit s s.motionStall
    | none => s)

/-- PARK_ACK_CHANGE (R150). A level that has not changed does nothing. -/
def execParkAckChange (asserted : Bool) (s : State) : Host.Outcome State Fault Refusal :=
  .next (if s.park.ack = asserted then s else s.parkAck asserted)

/-- ACK_TIMER_EXPIRY (R150). -/
def execAckTimerExpiry (s : State) : Host.Outcome State Fault Refusal :=
  .next (match s.park.state, s.park.timer with
    | .requested, some _ => s.parkTimeout
    | _, _ => s)

/-- MOTION_PAGE_TICK (R153). -/
def execMotionPageTick (s : State) : Host.Outcome State Fault Refusal := .next s.rewriteMotion

end Sys2Proof.Machine
end

