-- ==== Sys2Proof/Machine/LinkCommands.lean ====
section
/-! DEFINITION. The clocks, the link transfers and the link registers (sections 6.4 and 11.1 to 11.3). Each transfer is one step (log
entry 12). -/

namespace Sys2Proof.Machine

/-- MS_CLOCK_TICK (R167). -/
def execMsClockTick (s : State) : Host.Outcome State Fault Refusal := .next { s with clock := s.clock + 1 }.writeClock

/-- SECONDS_TICK (R167). -/
def execSecondsTick (s : State) : Host.Outcome State Fault Refusal := .next { s with seconds := s.seconds + 1 }.writeSeconds

/-- A transfer has returned data bytes on MISO. -/
def State.answers (s : State) (bytes : List Byte) : State := { s with miso := bytes }

/-- MEMORY_READ (R166). -/
def execMemoryRead (addr : Option Half) (count : Nat) (s : State) : Host.Outcome State Fault Refusal :=
  .next (match addr with
    | some a => s.answers (Mem.readRun s.mem a.toNat count)
    | none => s.answers [])

/-- MEMORY_WRITE (R166, R167). -/
def execMemoryWrite (addr : Option Half) (data : List Byte) (s : State) : Host.Outcome State Fault Refusal :=
  .next (match addr with
    | some a => { s with mem := Mem.hostWriteRun s.mem a.toNat data }.answers []
    | none => s.answers [])

/-- R169. What a register reads; an address above 3 reads 0. -/
def State.registerWord (s : State) (a : Nat) : Half :=
  match a with
  | 0 => s.attn.bits.setWidth 16
  | 1 => s.attn.mask.setWidth 16
  | 2 => s.walk.controlWord
  | _ => 0

/-- REGISTER_READ (R166): the two bytes of the register, low byte first; further bytes read 0. -/
def execRegisterRead (addr : Option Half) (count : Nat) (s : State) : Host.Outcome State Fault Refusal :=
  .next (match addr with
    | some a => s.answers ((u16 (s.registerWord a.toNat).toNat ++ pad count).take count)
    | none => s.answers [])

/-- R169. MASK: all fifteen bits replaced, the top bit ignored. -/
def State.maskWrite (s : State) (v : Half) : State := { s with attn := { s.attn with mask := v.setWidth 15 } }

/-- R166, R169. A whole write of a link register; an address above 3 is ignored. -/
def State.registerWrite (s : State) (a : Nat) (v : Half) (supply : Supply) : State :=
  match a with
  | 0 => s.attnClear v
  | 1 => s.maskWrite v
  | 2 => s.controlWrite v supply
  | 3 => s.nudge supply
  | _ => s

/-- REGISTER_WRITE (R166): it takes effect when its second byte is complete; a transfer that ends before then writes nothing, and bytes
after the second are ignored. -/
def execRegisterWrite (addr : Option Half) (data : List Byte) (supply : Supply) (s : State) :
    Host.Outcome State Fault Refusal :=
  .next (match addr, data with
    | some a, lo :: hi :: _ => State.commit s ((s.answers []).registerWrite a.toNat (hi ++ lo) supply)
    | _, _ => s.answers [])

/-- An unknown command byte (R166): the rest of the transfer is ignored and MISO is 0. -/
def execUnknownCommand (_cmd : Byte) (count : Nat) (s : State) : Host.Outcome State Fault Refusal := .next (s.answers (pad count))

/-- ATTN_WRITE (R178). -/
def execAttnWrite (value : Half) (s : State) : Host.Outcome State Fault Refusal := .next ((s.answers []).attnClear value)

/-- MASK_WRITE (R169). -/
def execMaskWrite (value : Half) (s : State) : Host.Outcome State Fault Refusal := .next ((s.answers []).maskWrite value)

/-- CONTROL_RUN (R170): a write of CONTROL for its RUN field. -/
def execControlRun (value : Half) (supply : Supply) (s : State) : Host.Outcome State Fault Refusal :=
  .next (State.commit s ((s.answers []).controlWrite value supply))

/-- CONTROL_RECHECK (R170): a write of CONTROL for its RECHECK field. -/
def execControlRecheck (value : Half) (supply : Supply) (s : State) : Host.Outcome State Fault Refusal :=
  .next (State.commit s ((s.answers []).controlWrite value supply))

/-- SOFT_RESET (R170, R179): a write of CONTROL with SOFT_RESET set; the other fields of the value are discarded. -/
def execSoftReset (_value : Half) (s : State) : Host.Outcome State Fault Refusal := .next (s.answers []).platformReset

/-- NUDGE (R173): any write of the register, whatever its value. -/
def execNudge (_value : Half) (supply : Supply) (s : State) : Host.Outcome State Fault Refusal :=
  .next (State.commit s ((s.answers []).nudge supply))

/-- RECHECK_EXPIRY (R173). -/
def execRecheckExpiry (supply : Supply) (s : State) : Host.Outcome State Fault Refusal :=
  .next (match s.walk.state, s.walk.recheckTimer with
    | .waiting, some _ => State.commit s (s.recheckLook supply)
    | _, _ => s)

end Sys2Proof.Machine
end

