-- ==== Sys2Proof/Machine/CardCommands.lean ====
section
/-! DEFINITION. The cards: the RUNNING walker takes the card at its slot (R172). Each is the taking of a card of one kind; the work of
the kind is in Cards.lean and in the owner's file. -/

namespace Sys2Proof.Machine

/-- The comparators' voltages of a card that no comparator enters into. -/
def noSupply : Supply := ⟨0, 0, 0⟩

/-- SET_PANEL (R121). -/
def execSetPanel (s : State) : Host.Outcome State Fault Refusal := .next (State.commit s (s.cardRow (some .setPanel) noSupply))

/-- SET_CURVE (R123). -/
def execSetCurve (s : State) : Host.Outcome State Fault Refusal := .next (State.commit s (s.cardRow (some .setCurve) noSupply))

/-- SET_BRIGHTNESS (R124). -/
def execSetBrightness (s : State) : Host.Outcome State Fault Refusal := .next (State.commit s (s.cardRow (some .setBrightness) noSupply))

/-- SET_LIGHT (R119). -/
def execSetLight (s : State) : Host.Outcome State Fault Refusal := .next (State.commit s (s.cardRow (some .setLight) noSupply))

/-- SET_LOAD (R71). -/
def execSetLoad (s : State) : Host.Outcome State Fault Refusal := .next (State.commit s (s.cardRow (some .setLoad) noSupply))

/-- SET_BASE_LOAD (R67). -/
def execSetBaseLoad (s : State) : Host.Outcome State Fault Refusal := .next (State.commit s (s.cardRow (some .setBaseLoad) noSupply))

/-- SET_POWER_POLICY (R12). -/
def execSetPowerPolicy (s : State) : Host.Outcome State Fault Refusal := .next (State.commit s (s.cardRow (some .setPowerPolicy) noSupply))

/-- SET_SOURCE_TRIP (R3). -/
def execSetSourceTrip (supply : Supply) (s : State) : Host.Outcome State Fault Refusal := .next (State.commit s (s.cardRow (some .setSourceTrip) supply))

/-- SET_CHARGE (R86). -/
def execSetCharge (s : State) : Host.Outcome State Fault Refusal := .next (State.commit s (s.cardRow (some .setCharge) noSupply))

/-- SET_THERMAL (R104). -/
def execSetThermal (s : State) : Host.Outcome State Fault Refusal := .next (State.commit s (s.cardRow (some .setThermal) noSupply))

/-- SET_MOTION (R149). -/
def execSetMotion (s : State) : Host.Outcome State Fault Refusal := .next (State.commit s (s.cardRow (some .setMotion) noSupply))

/-- SET_CLASSIFIER (R160). -/
def execSetClassifier (s : State) : Host.Outcome State Fault Refusal := .next (State.commit s (s.cardRow (some .setClassifier) noSupply))

/-- SET_HOLD (R177). -/
def execSetHold (s : State) : Host.Outcome State Fault Refusal := .next (State.commit s (s.cardRow (some .setHold) noSupply))

/-- SET_GAUGE (R31). -/
def execSetGauge (s : State) : Host.Outcome State Fault Refusal := .next (State.commit s (s.cardRow (some .setGauge) noSupply))

/-- RELEASE_BAY (R63). -/
def execReleaseBay (s : State) : Host.Outcome State Fault Refusal := .next (State.commit s (s.cardRow (some .releaseBay) noSupply))

/-- IDENTIFY_PACK (R34). -/
def execIdentifyPack (s : State) : Host.Outcome State Fault Refusal := .next (State.commit s (s.cardRow (some .identifyPack) noSupply))

/-- PARK (R152). -/
def execPark (s : State) : Host.Outcome State Fault Refusal := .next (State.commit s (s.cardRow (some .park) noSupply))

/-- RELEASE_PARK (R151). -/
def execReleasePark (s : State) : Host.Outcome State Fault Refusal := .next (State.commit s (s.cardRow (some .releasePark) noSupply))

/-- A card of a kind that the table does not list (R174): UNKNOWN_KIND. -/
def execUnknownKindCard (s : State) : Host.Outcome State Fault Refusal := .next (State.commit s (s.cardRow none noSupply))

end Sys2Proof.Machine
end

