-- ==== Sys2Proof/Machine/Dispatch.lean ====
section
/-! DEFINITION. The dispatch: one arm for each constructor of `Instr`, each a direct call of the command's meaning. -/

namespace Sys2Proof.Machine

def exec (i : Instr) (s : State) : Host.Outcome State Fault Refusal :=
  match i with
  | .powerOnReset pins => Sys2Proof.Machine.execPowerOnReset pins s
  | .hrstChange low => Sys2Proof.Machine.execHrstChange low s
  | .hrstDeglitchExpiry => Sys2Proof.Machine.execHrstDeglitchExpiry s
  | .psLineChange ps0 ps1 => Sys2Proof.Machine.execPsLineChange ps0 ps1 s
  | .psDeglitchExpiry => Sys2Proof.Machine.execPsDeglitchExpiry s
  | .senseSample inlet packA packB => Sys2Proof.Machine.execSenseSample inlet packA packB s
  | .comparatorTrip src above => Sys2Proof.Machine.execComparatorTrip src above s
  | .inSettleExpiry adpId => Sys2Proof.Machine.execInSettleExpiry adpId s
  | .transferSettleExpiry => Sys2Proof.Machine.execTransferSettleExpiry s
  | .postImpactExpiry => Sys2Proof.Machine.execPostImpactExpiry s
  | .gaugeAttemptDone bay value alarms => Sys2Proof.Machine.execGaugeAttemptDone bay value alarms s
  | .gaugeAttemptNak bay => Sys2Proof.Machine.execGaugeAttemptNak bay s
  | .gaugeAttemptTimeout bay => Sys2Proof.Machine.execGaugeAttemptTimeout bay s
  | .pollIntervalExpiry bay => Sys2Proof.Machine.execPollIntervalExpiry bay s
  | .contactChange bay closed => Sys2Proof.Machine.execContactChange bay closed s
  | .removalConfirmExpiry bay => Sys2Proof.Machine.execRemovalConfirmExpiry bay s
  | .baySettleExpiry bay => Sys2Proof.Machine.execBaySettleExpiry bay s
  | .buttonChange bay pressed => Sys2Proof.Machine.execButtonChange bay pressed s
  | .buttonDebounceExpiry bay => Sys2Proof.Machine.execButtonDebounceExpiry bay s
  | .prepareLimitExpiry bay => Sys2Proof.Machine.execPrepareLimitExpiry bay s
  | .releaseWindowExpiry bay => Sys2Proof.Machine.execReleaseWindowExpiry bay s
  | .risingSettleExpiry => Sys2Proof.Machine.execRisingSettleExpiry s
  | .fallingSettleExpiry => Sys2Proof.Machine.execFallingSettleExpiry s
  | .thermistorSampling panel charger enclosure => Sys2Proof.Machine.execThermistorSampling panel charger enclosure s
  | .lightStartDone => Sys2Proof.Machine.execLightStartDone s
  | .integrationExpiry => Sys2Proof.Machine.execIntegrationExpiry s
  | .lightReadDone c ir => Sys2Proof.Machine.execLightReadDone c ir s
  | .lightTransactionNak => Sys2Proof.Machine.execLightTransactionNak s
  | .lightTransactionTimeout => Sys2Proof.Machine.execLightTransactionTimeout s
  | .lightWaitExpiry => Sys2Proof.Machine.execLightWaitExpiry s
  | .lightIdleDone => Sys2Proof.Machine.execLightIdleDone s
  | .lightFaultTimerExpiry => Sys2Proof.Machine.execLightFaultTimerExpiry s
  | .slewTick => Sys2Proof.Machine.execSlewTick s
  | .tokenReleaseExpiry => Sys2Proof.Machine.execTokenReleaseExpiry s
  | .motionReadTick => Sys2Proof.Machine.execMotionReadTick s
  | .motionReadDone seq x y z => Sys2Proof.Machine.execMotionReadDone seq x y z s
  | .motionStallExpiry => Sys2Proof.Machine.execMotionStallExpiry s
  | .parkAckChange asserted => Sys2Proof.Machine.execParkAckChange asserted s
  | .ackTimerExpiry => Sys2Proof.Machine.execAckTimerExpiry s
  | .motionPageTick => Sys2Proof.Machine.execMotionPageTick s
  | .msClockTick => Sys2Proof.Machine.execMsClockTick s
  | .secondsTick => Sys2Proof.Machine.execSecondsTick s
  | .memoryRead addr count => Sys2Proof.Machine.execMemoryRead addr count s
  | .memoryWrite addr data => Sys2Proof.Machine.execMemoryWrite addr data s
  | .registerRead addr count => Sys2Proof.Machine.execRegisterRead addr count s
  | .registerWrite addr data supply => Sys2Proof.Machine.execRegisterWrite addr data supply s
  | .unknownCommand cmd count => Sys2Proof.Machine.execUnknownCommand cmd count s
  | .attnWrite value => Sys2Proof.Machine.execAttnWrite value s
  | .maskWrite value => Sys2Proof.Machine.execMaskWrite value s
  | .controlRun value supply => Sys2Proof.Machine.execControlRun value supply s
  | .controlRecheck value supply => Sys2Proof.Machine.execControlRecheck value supply s
  | .softReset value => Sys2Proof.Machine.execSoftReset value s
  | .nudge value supply => Sys2Proof.Machine.execNudge value supply s
  | .recheckExpiry supply => Sys2Proof.Machine.execRecheckExpiry supply s
  | .setPanel => Sys2Proof.Machine.execSetPanel s
  | .setCurve => Sys2Proof.Machine.execSetCurve s
  | .setBrightness => Sys2Proof.Machine.execSetBrightness s
  | .setLight => Sys2Proof.Machine.execSetLight s
  | .setLoad => Sys2Proof.Machine.execSetLoad s
  | .setBaseLoad => Sys2Proof.Machine.execSetBaseLoad s
  | .setPowerPolicy => Sys2Proof.Machine.execSetPowerPolicy s
  | .setSourceTrip supply => Sys2Proof.Machine.execSetSourceTrip supply s
  | .setCharge => Sys2Proof.Machine.execSetCharge s
  | .setThermal => Sys2Proof.Machine.execSetThermal s
  | .setMotion => Sys2Proof.Machine.execSetMotion s
  | .setClassifier => Sys2Proof.Machine.execSetClassifier s
  | .setHold => Sys2Proof.Machine.execSetHold s
  | .setGauge => Sys2Proof.Machine.execSetGauge s
  | .releaseBay => Sys2Proof.Machine.execReleaseBay s
  | .identifyPack => Sys2Proof.Machine.execIdentifyPack s
  | .park => Sys2Proof.Machine.execPark s
  | .releasePark => Sys2Proof.Machine.execReleasePark s
  | .unknownKindCard => Sys2Proof.Machine.execUnknownKindCard s

end Sys2Proof.Machine
end

