-- ==== Sys2Proof/Machine/Lines.lean ====
section
/-! DEFINITION. The output lines of the part (section 4 of the overview) as they stand in a state. None is stored: each line is driven from the
record of the block that owns it. -/

namespace Sys2Proof.Machine

/-- R20, R24, section 1.3. PFW# is asserted exactly while the path state is BROWNOUT. -/
def Path.pfw (p : Path) : Bool := p.mode == .brownout

/-- R132. BL_EN is asserted while the present duty, which BL_PWM carries, is above 0. -/
def Bld.enable (b : Bld) : Bool := b.present != 0

/-- The output lines; `true` where a line is asserted. -/
structure Lines where
  attn : Bool
  pfw : Bool
  parkReq : Bool
  lockA : Bool
  lockB : Bool
  swIn : Bool
  swA : Bool
  swB : Bool
  blEn : Bool
  blPwm : Nat
  chgEn : Bool
  chgSel : Bay
  chgSet : Nat
deriving DecidableEq, Repr

/-- R8 (SW_x), R20 (PFW#), R58 (LOCK_x), R91 (CHG_EN, CHG_SEL, CHG_SET), R132 (BL_EN, BL_PWM), R150 (PARK_REQ), R178 (ATTN#). -/
def State.lines (s : State) : Lines :=
  { attn := s.attnLine, pfw := s.path.pfw, parkReq := s.park.req, lockA := s.bayc.bayA.lock, lockB := s.bayc.bayB.lock,
    swIn := s.smon.inlet.closed, swA := s.smon.packA.closed, swB := s.smon.packB.closed, blEn := s.bld.enable, blPwm := s.bld.present,
    chgEn := s.chg.en, chgSel := s.chg.sel, chgSet := s.chg.set }

end Sys2Proof.Machine
end

