-- ==== Sys2Proof/Safety.lean ====
section
/-! DEFINITION. The properties of states in which the statements are written: what counts as sound, and the part of a state that no report
between blocks changes. -/

namespace Sys2Proof.Machine

/-! ### Sound states, from the manual's prose -/

/-- R58. A bay's lock is ENERGIZED exactly while the bay is RELEASED. -/
def BayRecord.lockSound (b : BayRecord) : Prop := b.lock = true ↔ b.state = .released

/-- R58 for both bays. -/
def State.locksSound (s : State) : Prop := s.bayc.bayA.lockSound ∧ s.bayc.bayB.lockSound

/-- R50. At most one of the two bays is in PREPARING or RELEASED. -/
def State.oneOpening (s : State) : Prop := ¬ (s.bayc.bayA.state.opening = true ∧ s.bayc.bayB.state.opening = true)

/-- R178. Every level bit whose condition holds is set. -/
def State.levelsSound (s : State) : Prop :=
  ∀ b : AttnBit, s.condition b = true → s.attnBit b = true

/-- R72. The grants of all entries sum to no more than the headroom, which is max(0, capacity − base load). -/
def State.grantsSound (s : State) : Prop :=
  grantSum s.budget.entries ≤ s.budget.headroom ∧ s.budget.headroom = s.budget.capacity - s.budget.base

/-- R129. The present duty is within the ceiling, the ceiling within the capped duty and the budget cap, the capped duty within the
thermal and the boost cap, and the power of the ceiling, and so that of the present duty, within the BACKLIGHT grant that BLD holds. -/
def Bld.dutySound (b : Bld) : Prop :=
  b.present ≤ b.ceiling ∧ b.ceiling ≤ b.capped ∧ b.ceiling ≤ b.budgetCap ∧ b.capped ≤ b.thermalCap ∧ b.capped ≤ b.boostCap ∧
    dutyPower b.power b.ceiling ≤ b.lastGrant ∧ dutyPower b.power b.present ≤ b.lastGrant

/-- R91. The commanded power is within the last CHARGER grant and within the request, and CHG_EN is asserted in CHARGING alone. -/
def Charger.powerSound (c : Charger) : Prop :=
  c.set ≤ c.lastGrant ∧ c.set ≤ c.request ∧ (c.en = true ↔ c.state = .charging)

/-- R87. In CHARGING the charger has a charging bay, IN feeds, the bay is SEATED and its pack's switch is open. -/
def State.chargeSound (s : State) : Prop :=
  s.chg.state = .charging →
    ∃ x, s.chg.bay = some x ∧ s.smon.inlet.closed = true ∧ (s.bay x).state = .seated ∧ (s.source (packSource x)).closed = false

/-- R148. FREEFALL is in the hold set exactly while the detector is FALLING or in an IMPACT of kind DROP. -/
def State.freefallSound (s : State) : Prop :=
  s.path.holds.freefall = true ↔
    s.mot.detector = .falling ∨ (s.mot.detector = .impact ∧ ∃ w, s.mot.window = some w ∧ w.kind = .drop)

/-- R150. PARK_REQ is asserted whenever the detector is in FALLING and whenever the latch is set. -/
def State.parkSound (s : State) : Prop :=
  (s.mot.detector = .falling ∨ s.park.latch = true) → s.park.req = true

/-- Section 1.3. A transfer record exists exactly in MAKING and PAUSED. -/
def Path.recordSound (p : Path) : Prop := p.transfer.isSome = true ↔ p.mode = .making ∨ p.mode = .paused

/-- R17. The path is MAKING only while the hold set is empty, and PAUSED only while it is not. -/
def Path.holdSound (p : Path) : Prop :=
  (p.mode = .making → p.holds.isEmpty = true) ∧ (p.mode = .paused → p.holds.isEmpty = false)

/-- R20, R21, section 1.3. In BROWNOUT every switch is open and the measured load is 0. -/
def State.brownoutSound (s : State) : Prop := s.path.mode = .brownout → s.feeding = .empty ∧ s.path.measured = 0

/-- R20, R14, R15. Outside BROWNOUT some source feeds, and while a transfer record stands its incoming set is not empty, feeds, and has no
member that is to be removed. Before the first closure of R24, in `State.reset`, nothing feeds yet (log entry 5). -/
def State.fedSound (s : State) : Prop :=
  (s.path.mode ≠ .brownout → s.feeding ≠ .empty) ∧
    ∀ r, s.path.transfer = some r →
      r.incoming ≠ .empty ∧ r.incoming.less s.feeding = .empty ∧ r.incoming.less r.outgoing = r.incoming

/-- R8, R7. A pack's switch is closed only while its bay is SEATED, PREPARING or IDENTIFYING, or its loss is a report that PATH has not
taken yet (log entry 6). -/
def State.switchesSound (s : State) : Prop :=
  ∀ x, (s.source (packSource x)).closed = true →
    (s.bay x).state = .seated ∨ (s.bay x).state = .preparing ∨ (s.bay x).state = .identifying ∨ Report.sourceLost x ∈ s.reports

/-- R58. A RELEASED bay's switch is open, but for a loss that PATH has not taken yet (log entry 6), and its pack is not charged. -/
def State.releasedSound (s : State) : Prop :=
  ∀ x, (s.bay x).state = .released →
    ((s.source (packSource x)).closed = false ∨ Report.sourceLost x ∈ s.reports) ∧ s.chg.charging x = false

/-! ### The backlight and the charger beside the budget and the zones -/

/-- R74. BLD holds the grant and the state of the BACKLIGHT entry. -/
def State.bldHanded (s : State) : Prop :=
  s.bld.lastGrant = (s.budget.entry 2).grant ∧ s.bld.lastState = (s.budget.entry 2).state

/-- R89, R102. CHG's charge factor is the one of the zone levels. -/
def State.factorSound (s : State) : Prop := s.chg.factor = s.therm.chargeFactor

/-- R74. CHG holds the grant and the state of the CHARGER entry. -/
def State.chgHanded (s : State) : Prop :=
  s.chg.lastGrant = (s.budget.entry 3).grant ∧ s.chg.lastState = (s.budget.entry 3).state

/-- R105, R127, R82. BLD's factor is the one of the zone levels, the thermal cap is within it, and the boost cap is above D_norm only while
BLD holds the token. The token that BLD holds is BUDGET's, or its change is a report that BLD has not taken yet (log entry 6). -/
def State.capsSound (s : State) : Prop :=
  s.bld.factor = s.therm.backlightFactor ∧ s.bld.thermalCap ≤ 1023 * s.therm.backlightFactor / 100 ∧
    (s.bld.token ≠ .backlight → s.bld.boostCap ≤ s.bld.nNorm * 1023 / s.bld.nFull) ∧
    (s.bld.token = s.budget.token ∨ Report.derive ∈ s.reports)

/-- R82. A present duty above D_norm stands only while the token is BACKLIGHT, a change that BLD has not taken yet apart (log entry 6). -/
def State.boostSound (s : State) : Prop :=
  s.bld.nNorm * 1023 / s.bld.nFull < s.bld.present → s.budget.token = .backlight ∨ Report.derive ∈ s.reports

/-- R82. The rate is FAST only while the token is CHARGER. -/
def State.fastSound (s : State) : Prop := s.chg.fast = true → s.budget.token = .charger

/-- R126, R128, R135. Outside ACTIVE the backlight is dark and asks for nothing. -/
def State.darkSound (s : State) : Prop :=
  s.psd.platform ≠ .active →
    s.bld.requested = 0 ∧ s.bld.demand = 0 ∧ s.bld.ceiling = 0 ∧ s.bld.present = 0 ∧ s.bld.request = 0 ∧ s.bld.floor = 0

/-- Sections 4.2 and 8.2. The budget table has its twelve entries, and the curve no more points than the twelve that a page holds. -/
def State.tablesSound (s : State) : Prop := s.budget.entries.length = 12 ∧ s.bld.curve.length ≤ 12

/-- The exchange memory is in its canonical form. -/
def State.memorySound (s : State) : Prop := Mem.wf s.mem = true

/-! ### Settings in their ranges (R174) -/

/-- R121, R123, R124, R119. The settings of the backlight. -/
def Bld.settingsSound (b : Bld) : Prop :=
  (1000 ≤ b.power ∧ b.power ≤ 30000) ∧ (100 ≤ b.nFull ∧ b.nFull ≤ 2000) ∧ b.nNorm ≤ b.nFull ∧ (1 ≤ b.dMin ∧ b.dMin ≤ 255) ∧
    (1 ≤ b.riseStep ∧ b.riseStep ≤ 255) ∧ (1 ≤ b.fallStep ∧ b.fallStep ≤ 255) ∧ b.manual ≤ 2000 ∧
    (-500 ≤ b.offset ∧ b.offset ≤ 500) ∧ (5 ≤ b.delay ∧ b.delay ≤ 300)

/-- R123. Between 2 and 12 points, even lux up to 131,070, strictly rising, at most 2,000 nits. -/
def Bld.curveSound (b : Bld) : Prop :=
  2 ≤ b.curve.length ∧ b.curve.length ≤ 12 ∧ b.curve.Pairwise (fun p q => p.lux < q.lux) ∧
    ∀ p ∈ b.curve, p.lux % 2 = 0 ∧ p.lux ≤ 131070 ∧ p.nits ≤ 2000

/-- R104. Three strictly increasing trips within what a zone can show, and the hysteresis. -/
def Zone.tripsSound (z : Zone) : Prop := -400 ≤ z.t1 ∧ z.t1 < z.t2 ∧ z.t2 < z.t3 ∧ z.t3 ≤ 1250 ∧ z.hyst ≤ 100

/-- R12, R31, R59, R66, R67, R86. The settings of the sources, the path, the gauge links, the bays, the budget and the charger. -/
def State.powerSettingsSound (s : State) : Prop :=
  (s.smon.inlet.tripCode ≤ 31 ∧ s.smon.packA.tripCode ≤ 31 ∧ s.smon.packB.tripCode ≤ 31) ∧
    (s.smon.override = 0 ∨ (10000 ≤ s.smon.override ∧ s.smon.override ≤ 200000)) ∧ s.path.reserve ≤ 50 ∧
    (250 ≤ s.glu.pollInterval ∧ s.glu.pollInterval ≤ 10000) ∧ s.glu.retryLimit ≤ 7 ∧
    (5 ≤ s.bayc.window ∧ s.bayc.window ≤ 60) ∧ s.budget.margin ≤ 30 ∧ s.budget.swapMargin ≤ 20000 ∧ s.budget.base ≤ 200000 ∧
    (5000 ≤ s.chg.stdRate ∧ s.chg.stdRate ≤ 60000) ∧ (s.chg.stdRate ≤ s.chg.fastRate ∧ s.chg.fastRate ≤ 90000)

/-- R104, R119, R149, R160, R170. The settings of the zones, the light unit, the motion unit, the classifier and the walker, and the three
gains that the light unit knows (R109, R114). -/
def State.sensorSettingsSound (s : State) : Prop :=
  (s.therm.panel.tripsSound ∧ s.therm.charger.tripsSound ∧ s.therm.enclosure.tripsSound ∧ s.therm.bayA.tripsSound ∧
      s.therm.bayB.tripsSound) ∧
    (s.als.rejection ≤ 255 ∧ (1 ≤ s.als.rise ∧ s.als.rise ≤ 16) ∧ (1 ≤ s.als.fall ∧ s.als.fall ≤ 16)) ∧
    (s.als.gain = 1 ∨ s.als.gain = 8 ∨ s.als.gain = 64) ∧
    ((100 ≤ s.mot.ffThreshold ∧ s.mot.ffThreshold ≤ 800) ∧ (16 ≤ s.mot.ffCount ∧ s.mot.ffCount ≤ 255) ∧
      (1250 ≤ s.mot.impThreshold ∧ s.mot.impThreshold ≤ 15000)) ∧
    (s.icl.rule0.severity ≤ 3 ∧ s.icl.rule1.severity ≤ 3 ∧ s.icl.rule2.severity ≤ 3 ∧ s.icl.rule3.severity ≤ 3) ∧
    s.walk.recheck ≤ 100

/-- R174. Every setting lies in its range. -/
def State.settingsSound (s : State) : Prop :=
  s.bld.settingsSound ∧ s.bld.curveSound ∧ s.powerSettingsSound ∧ s.sensorSettingsSound

/-! ### Cards (R171, R172, R175) -/

/-- R175. No two entries of the resource table name the same slot. -/
def State.slotsDistinct (s : State) : Prop :=
  ∀ (m n : ResourceName) (slot : BitVec 5) (tag tag' : Half),
    s.walk.resource m = .held slot tag → s.walk.resource n = .held slot tag' → m = n

/-- R172. The walker is RUNNING and the slot at its index is takeable and carries a card of the kind. -/
def State.ready (s : State) (kind : Option CardKind) : Prop :=
  s.walk.state = .running ∧ s.takeable s.walk.index = true ∧ s.cardKind s.walk.index = kind ∧ s.tablesSound

/-- A slot shows a run of bytes at each of some offsets. -/
def State.shows (s : State) (slot : BitVec 5) (fields : Fields) : Prop :=
  ∀ f ∈ fields, ∀ i, i < f.2.length → s.byte (Mem.slot slot + f.1 + i) = f.2.getD i 0

/-- R171. What a slot shows after its card's return: the owner OPEN, the tag of the walker's copy, the result, the detail and the low 16
bits of the ms clock at the return. -/
def State.returned (s : State) (slot : BitVec 5) (tag : Half) (r : Result) (detail : Nat) (stamp : Clock) : Prop :=
  s.shows slot [(0, u8 0), (2, u16 tag.toNat), (4, u8 r.code), (5, u8 detail), (6, u16 stamp.toNat)]

/-- R172. The walker has gone on to the next slot: it runs there, or it waits there with LIST_IDLE raised and the taken flag clear. RUN and
RECHECK are as they were. -/
def State.advanced (s t : State) : Prop :=
  t.walk.index = s.walk.index + 1 ∧ t.walk.run = s.walk.run ∧ t.walk.recheck = s.walk.recheck ∧
    (t.walk.state = .running ∨ (t.walk.state = .waiting ∧ t.walk.taken = false ∧ t.attnBit .listIdle = true))

/-- R185. The kind of the card in a slot and every byte of its parameter area that is no result field are as the host left them. -/
def State.slotKept (s t : State) (slot : BitVec 5) (fields : Fields) : Prop :=
  ∀ k, k < 64 → (k = 1 ∨ 8 ≤ k) → (∀ f ∈ fields, k < f.1 ∨ f.1 + f.2.length ≤ k) →
    t.byte (Mem.slot slot + k) = s.byte (Mem.slot slot + k)

/-- R174, R185. The card at the walker's slot has been taken and returned with a result, a detail and result fields, and no other byte of its
parameters has changed; CARD_DONE is raised and the walker has gone on. -/
def State.cardDone (s t : State) (r : Result) (detail : Nat) (fields : Fields) : Prop :=
  t.returned s.walk.index (s.cardTag s.walk.index) r detail s.clock ∧ t.shows s.walk.index fields ∧ t.attnBit .cardDone = true ∧
    s.advanced t ∧ s.slotKept t s.walk.index fields

/-- The command that is the taking of a card of a kind (R172); `supply` is read by a SET_SOURCE_TRIP card alone. -/
def cardCommand (kind : Option CardKind) (supply : Supply) : Instr :=
  match kind with
  | some .setPanel => .setPanel
  | some .setCurve => .setCurve
  | some .setBrightness => .setBrightness
  | some .setLight => .setLight
  | some .setLoad => .setLoad
  | some .setBaseLoad => .setBaseLoad
  | some .setPowerPolicy => .setPowerPolicy
  | some .setSourceTrip => .setSourceTrip supply
  | some .setCharge => .setCharge
  | some .setThermal => .setThermal
  | some .setMotion => .setMotion
  | some .setClassifier => .setClassifier
  | some .setHold => .setHold
  | some .setGauge => .setGauge
  | some .releaseBay => .releaseBay
  | some .identifyPack => .identifyPack
  | some .park => .park
  | some .releasePark => .releasePark
  | none => .unknownKindCard

/-- R174. OK where every scalar was taken as it was given, CLAMPED where one was taken at the edge of its range. -/
def resultFor (asGiven : Bool) : Result := if asGiven then .ok else .clamped

/-- R179, step 2. A resource entry after a platform reset. -/
def Resource.afterReset : Resource → Resource
  | .free => .free
  | .held _ _ => .orphaned
  | .orphaned => .orphaned

/-! ### What no report between blocks changes -/

/-- A source entry without its switch and its limit. -/
def SourceEntry.still (e : SourceEntry) : SourceEntry := { e with closed := false, limit := 0 }

/-- A pack's source entry without its switch, its limit and its presence, which mirrors the bay. -/
def SourceEntry.packStill (e : SourceEntry) : SourceEntry := { e.still with presence := .absent }

/-- A pack record without what a forced poll changes. -/
def PackRecord.still (p : PackRecord) : PackRecord := { p with forcedPending := false, op := none, interval := none }

/-- A bay record without what the release procedure changes. -/
def BayRecord.still (b : BayRecord) : BayRecord :=
  { b with state := .empty, lock := false, window := none, endDeferred := false, prepare := none, request := none, outcome := none }

/-- The settings of the budget. -/
def Budget.still (b : Budget) : Budget := { Budget.reset with margin := b.margin, swapMargin := b.swapMargin, base := b.base }

/-- The settings of the charger, and the charge factor it holds. -/
def Charger.still (c : Charger) : Charger :=
  { Charger.reset with factor := c.factor, enabled := c.enabled, fastAllowed := c.fastAllowed, stdRate := c.stdRate, fastRate := c.fastRate }

/-- The settings of the backlight, the F and the thermal factor it holds. -/
def Bld.still (b : Bld) : Bld :=
  { Bld.reset with
    power := b.power, nFull := b.nFull, nNorm := b.nNorm, dMin := b.dMin, riseStep := b.riseStep, fallStep := b.fallStep
    curve := b.curve, mode := b.mode, manual := b.manual, offset := b.offset, f := b.f, factor := b.factor, delay := b.delay }

/-- The path without its state, its transfer record and the measured load, which a BROWNOUT makes 0 (R21). -/
def Path.still (p : Path) : Path := { p with mode := .steady, transfer := none, measured := 0 }

/-- The walker without its resource table. -/
def Walker.still (w : Walker) : Walker := { w with bayA := .free, bayB := .free, park := .free }

/-- A state with everything blanked that a report between blocks may change: the switches, the limits, the path state, the release
procedure, the polls in flight, the budget table, the charger, the backlight's figures, the resource table, the attention bits and the
memory. Two states with the same still part agree in everything else. -/
def State.still (s : State) : State :=
  { s with
    smon := { s.smon with inlet := s.smon.inlet.still, packA := s.smon.packA.packStill, packB := s.smon.packB.packStill }
    path := s.path.still
    glu := { s.glu with packA := s.glu.packA.still, packB := s.glu.packB.still }
    bayc := { s.bayc with bayA := s.bayc.bayA.still, bayB := s.bayc.bayB.still }
    budget := s.budget.still
    chg := s.chg.still
    bld := s.bld.still
    walk := s.walk.still
    attn := { s.attn with bits := 0 }
    mem := []
    reports := []
    turn := 0 }

/-- The attention bits of a state are all set in another. -/
def State.attnWithin (s t : State) : Prop := ∀ b : AttnBit, s.attnBit b = true → t.attnBit b = true

/-- R99. The zone table after a hand-over of pack x's record. -/
def Therm.withPack (t : Therm) (x : Bay) (p : PackRecord) (fresh : Bool) : Therm :=
  t.setZone (bayZone x) ((t.zone (bayZone x)).handed p fresh)

/-! ### Layouts (R184, sections 13.5 and 13.6) -/

/-- A layout: for each field its offset, its size in bytes and the number it holds. -/
abbrev Layout := List (Nat × Nat × Nat)

/-- Fields of one size that follow one another from an offset on. -/
def Layout.run (offset size : Nat) : List Nat → Layout
  | [] => []
  | v :: vs => (offset, size, v) :: Layout.run (offset + size) size vs

/-- A byte that a field of the layout covers. -/
def Layout.covers (l : Layout) (k : Nat) : Bool := l.any (fun f => Nat.ble f.1 k && Nat.blt k (f.1 + f.2.1))

/-- R184. A region of `size` bytes holds a layout: each field the low bytes of its number, little-endian, each byte that no field covers 0.
The first `skip` bytes, an update count, are left out. -/
def State.holdsLayout (s : State) (base skip size : Nat) (l : Layout) : Prop :=
  (∀ f ∈ l, s.num (base + f.1) f.2.1 = f.2.2 % 256 ^ f.2.1) ∧
    ∀ k, skip ≤ k → k < size → l.covers k = false → s.byte (base + k) = 0

/-- R184. The code of a value of an enumerated field whose values are listed from code 1 on. -/
def codeIn {α : Type} [BEq α] (values : List α) (v : α) : Nat := values.idxOf v + 1

/-- R184. As `codeIn`, 0 where the value is absent. -/
def codeOf {α : Type} [BEq α] (values : List α) : Option α → Nat
  | none => 0
  | some v => codeIn values v

/-- R184. The code of a field of two values. -/
def codeTwo (second : Bool) : Nat := if second then 2 else 1

/-- R184. A set: bit k for member k. -/
def codeSet : List Bool → Nat
  | [] => 0
  | b :: bs => b.toNat + 2 * codeSet bs

/-- R184. A signed number in two bytes. -/
def twos (z : Int) : Nat := (z % 65536).toNat

/-- A number that may be absent and then reads 0. -/
def numOf {α : Type} (f : α → Nat) : Option α → Nat
  | none => 0
  | some v => f v

/-- The sources of a set, as the set bits list them. -/
def SourceSet.members (t : SourceSet) : List Bool := [t.inlet, t.packA, t.packB]

/-- Section 13.5, power page: one source entry; the adapter class and override are IN's. -/
def sourceLayout (base : Nat) (e : SourceEntry) (cls : Option AdapterClass) : Layout :=
  Layout.run base 1
      [codeIn [.absent, .settling, .present] e.presence, codeTwo e.closed, codeTwo e.above, codeTwo e.tripHigh, e.tripCode,
        codeOf [.mw45, .mw65, .mw90, .mw130, .unknown] cls] ++
    [(base + 0x08, 2, e.mv), (base + 0x0A, 2, twos e.ma), (base + 0x0C, 4, e.limit)]

/-- Section 13.5, power page: one pack record. Bit 3 of the flags stands for an identification or a re-identifying poll in flight. -/
def packLayout (base : Nat) (p : PackRecord) (now : Clock) : Layout :=
  Layout.run base 1
      [codeIn [.none, .ident, .online, .degraded, .lost] p.link,
        codeSet [p.identity.isSome, p.snapshot.isSome, p.suspect, p.op.any (fun o => o.kind != .poll), p.forcedPending], p.failureRun,
        numOf Identity.cells p.identity] ++
    Layout.run (base + 0x04) 2
      [numOf Identity.serial p.identity, numOf Identity.design p.identity, numOf Snapshot.mv p.snapshot,
        numOf (fun t => twos t.ma) p.snapshot, numOf (fun t => twos t.temp) p.snapshot] ++
    Layout.run (base + 0x0E) 1
      [numOf Snapshot.charge p.snapshot,
        numOf (fun t => codeSet [t.alarms.overTemp, t.alarms.terminateDischarge, t.alarms.terminateCharge, t.alarms.full]) p.snapshot] ++
    Layout.run (base + 0x10) 2
      [numOf Snapshot.remaining p.snapshot, numOf Snapshot.full p.snapshot, numOf Snapshot.maxPower p.snapshot,
        numOf (fun t => min 65535 (now - t.stamp).toNat) p.snapshot]

/-- The code of a request's origin: BUTTON 1, CARD 2. -/
def originCode : Origin → Nat
  | .button => 1
  | .card _ => 2

/-- The slot of a card's request; 0 for a button's. -/
def originSlot : Origin → Nat
  | .button => 0
  | .card n => n.toNat

/-- Section 13.4. The result codes. -/
def resultCode : Result → Nat
  | .ok => 0x00
  | .clamped => 0x01
  | .badParam => 0x10
  | .unknownKind => 0x11
  | .busy => 0x12
  | .refusedSource => 0x13
  | .refusedState => 0x14
  | .held => 0x15
  | .removed => 0x16
  | .aborted => 0x17
  | .timeout => 0x18
  | .linkFailed => 0x19

/-- Section 13.5, power page: one bay record. -/
def bayLayout (base : Nat) (b : BayRecord) (now : Clock) : Layout :=
  Layout.run base 1
      [codeIn [.empty, .settling, .identifying, .seated, .preparing, .released, .unusable] b.state, codeTwo b.contact, codeTwo b.lock,
        codeTwo b.pressed, codeOf [.normal, .unannounced] b.lastRemoval, numOf (fun q => originCode q.origin) b.request,
        numOf (fun q => originSlot q.origin) b.request, b.glitches, remainingOf now b.removal] ++
    [(base + 0x0A, 2, remainingOf now b.settle), (base + 0x0C, 2, remainingOf now b.window),
      (base + 0x10, 4, numOf (fun q => q.start.toNat) b.request)] ++
    Layout.run (base + 0x14) 1
      [numOf (fun o => originCode o.origin) b.outcome, numOf (fun o => resultCode o.result) b.outcome,
        numOf Outcome.detail b.outcome] ++
    [(base + 0x18, 4, numOf (fun o => o.stamp.toNat) b.outcome)]

/-- Section 13.5. The power page, as it reads at the present clock. -/
def State.powerLayout (s : State) : Layout :=
  let r := s.path.transfer
  let c := s.chg
  sourceLayout 0x04 s.smon.inlet s.smon.adapter ++ [(0x14, 4, s.smon.override)] ++ sourceLayout 0x18 s.smon.packA none ++
    sourceLayout 0x2C s.smon.packB none ++
    Layout.run 0x40 1
      [codeSet s.feeding.members, codeIn [.steady, .making, .paused, .brownout] s.path.mode,
        codeSet [s.path.holds.freefall, s.path.holds.postImpact, s.path.holds.software], codeIn [.parallel, .sequential] s.path.discharge,
        s.path.reserve, codeOf [.inReturn, .sequential, .policy, .releaseA, .releaseB] (r.map Transfer.reason),
        numOf (fun t => codeSet t.incoming.members) r, numOf (fun t => codeSet t.outgoing.members) r] ++
    [(0x48, 4, numOf (fun t => t.start.toNat) r), (0x4C, 2, remainingOf s.clock s.path.postImpact)] ++
    packLayout 0x50 s.glu.packA s.clock ++ packLayout 0x68 s.glu.packB s.clock ++
    bayLayout 0x80 s.bayc.bayA s.clock ++ bayLayout 0x9C s.bayc.bayB s.clock ++
    Layout.run 0xB8 1
      [codeIn [.idle, .charging, .paused] c.state, codeOf [.a, .b] c.bay, codeOf [.budget, .thermal] c.pause, codeTwo c.fast,
        codeOf [.rising, .falling] (c.settle.map RateSettle.kind), c.claim.toNat, codeOf [.a, .b] c.barred, c.factor, c.enabled.toNat,
        c.fastAllowed.toNat] ++
    [(0xC2, 2, remainingOf s.clock (c.settle.map RateSettle.timer))] ++
    Layout.run 0xC4 4 [c.request, c.set, c.lastGrant, c.stdRate, c.fastRate]

/-- A curve point, packed: lux in bits 0 to 17, nits in bits 18 to 31. -/
def packedPoint (p : CurvePoint) : Nat := p.lux % 262144 + 262144 * p.nits

/-- Section 13.5. The light and backlight page. What the release timer's last unit rounds to is free (log entry 30). -/
def State.lightLayout (s : State) : Layout :=
  let l := s.als
  let b := s.bld
  Layout.run 0x02 1
      [codeTwo l.running, codeOf [.starting, .integrating, .reading, .waiting] l.cycle, l.gain, codeSet [l.fault, l.discarded], l.rejection,
        l.rise, l.fall, b.curve.length] ++
    Layout.run 0x0A 2 [l.c, l.i, remainingOf s.clock l.faultTimer] ++
    Layout.run 0x10 4 [l.raw, l.f, numOf BitVec.toNat l.completion] ++
    Layout.run 0x1C 2 [b.power, b.nFull, b.nNorm, b.nNorm * 1023 / b.nFull] ++
    Layout.run 0x24 1 [b.dMin, b.riseStep, b.fallStep, codeIn [.auto, .manual, .off] b.mode] ++
    Layout.run 0x28 2 [b.manual, twos b.offset] ++ [(0x2C, 4, b.f)] ++
    Layout.run 0x30 2
      [b.curveNits, b.target, b.requested, b.demand, b.capped, b.thermalCap, b.boostCap, b.budgetCap, b.ceiling, b.present] ++
    Layout.run 0x44 1
      [b.factor, codeSet [b.present != 0, b.claim], codeIn [.free, .backlight, .charger, .handover] b.token,
        codeIn [.inactive, .granted, .shed] b.lastState] ++
    Layout.run 0x48 2 [b.request, b.floor, b.lastGrant, unitsOf (remainingOf s.clock b.release)] ++
    Layout.run 0x50 4 ((List.range 12).map (fun i => numOf packedPoint b.curve[i]?))

/-- The six values of the peak axis and sign. -/
def axes : List PeakAxis := [⟨.x, false⟩, ⟨.x, true⟩, ⟨.y, false⟩, ⟨.y, true⟩, ⟨.z, false⟩, ⟨.z, true⟩]

/-- Section 13.5. The motion page. -/
def State.motionLayout (s : State) : Layout :=
  let m := s.mot
  let w := m.window
  let f := m.finished
  let rule (base : Nat) (r : ClassRule) : Layout :=
    Layout.run base 1
      [r.enable.toNat, codeIn [.peak, .height, .overCount, .rebounds, .fallSeen] r.field, r.invert.toNat, r.chain.toNat, r.severity] ++
      [(base + 6, 2, r.value)]
  Layout.run 0x02 1
      [codeIn [.idle, .candidate, .falling, .impact, .settle] m.detector, codeOf [.idle, .settle] m.origin, m.stalled.toNat,
        numOf (fun t => t.seq.toNat) m.last, m.candRun, m.quiet] ++
    Layout.run 0x08 2 [numOf (fun t => twos t.x) m.last, numOf (fun t => twos t.y) m.last, numOf (fun t => twos t.z) m.last, m.stillness] ++
    [(0x10, 4, numOf Sample.m2 m.last)] ++ Layout.run 0x14 2 [m.fall, m.pendingNormal, m.missed] ++
    Layout.run 0x1A 1 [codeOf [.shock, .drop, .fallNoImpact] (w.map Window.kind), codeOf axes (w.map Window.axis)] ++
    Layout.run 0x1C 2 [numOf Window.elapsed w, numOf Window.overs w, numOf Window.rebounds w, numOf Window.fall w] ++
    [(0x24, 4, numOf Window.peak2 w)] ++ Layout.run 0x28 2 [m.ffThreshold, m.ffCount, m.impThreshold] ++
    Layout.run 0x2E 1
      [m.parkOnShock.toNat, m.autoRelease.toNat, codeIn [.released, .requested, .parked] s.park.state, s.park.latch.toNat,
        s.park.ack.toNat] ++
    [(0x34, 2, remainingOf s.clock s.park.timer)] ++
    Layout.run 0x38 1 [codeOf [.shock, .drop, .fallNoImpact] (f.map Finished.kind), codeOf axes (f.bind Finished.axis)] ++
    Layout.run 0x3A 2 [numOf Finished.fall f, numOf Finished.peak f, numOf Finished.overs f, numOf Finished.rebounds f] ++
    [(0x44, 2, s.icl.nextSeq.toNat)] ++ rule 0x48 s.icl.rule0 ++ rule 0x50 s.icl.rule1 ++ rule 0x58 s.icl.rule2 ++ rule 0x60 s.icl.rule3

/-- Section 13.5. The thermal page. -/
def Therm.layout (t : Therm) : Layout :=
  let factor (level : Nat) : Nat := if level ≤ 1 then 100 else if level = 2 then 75 else 50
  let zone (base : Nat) (z : Zone) : Layout :=
    [(base, 2, numOf twos z.temp), (base + 2, 1, codeSet [z.temp.isSome, z.fault]), (base + 3, 1, z.forced.toNat), (base + 4, 1, z.level)] ++
      Layout.run (base + 6) 2 [twos z.t1, twos z.t2, twos z.t3] ++
      [(base + 0x0C, 2, z.hyst), (base + 0x0E, 4, numOf (fun _ => z.stamp.toNat) z.temp)]
  Layout.run 0x02 1 [t.backlightFactor, factor t.bayA.level, factor t.bayB.level] ++ zone 0x08 t.panel ++ zone 0x1C t.charger ++
    zone 0x30 t.enclosure ++ zone 0x44 t.bayA ++ zone 0x58 t.bayB

/-- Section 13.5. The budget page. -/
def State.budgetLayout (s : State) : Layout :=
  let b := s.budget
  Layout.run 0x02 1
      [codeIn [.free, .backlight, .charger, .handover] b.token, b.waiting.toNat, b.margin,
        codeOf [.a, .b] (b.projection.map Projection.bay)] ++
    Layout.run 0x08 4 [b.capacity, b.base, b.headroom, s.path.measured, b.swapMargin, b.projCapacity, b.predicted] ++
    (List.range 12).flatMap (fun i =>
      let e := b.entry i
      Layout.run (0x24 + 8 * i) 1
          [codeIn [.lockA, .lockB, .backlight, .charger, .host] e.kind, e.priority, codeIn [.inactive, .granted, .shed] e.state] ++
        [(0x28 + 8 * i, 4, e.grant), (0x84 + 8 * i, 4, e.request), (0x88 + 8 * i, 4, e.floor)])

/-- Section 13.6. The impact record of a finished measurement that gets a sequence number. -/
def State.recordLayout (s : State) (f : Finished) (seq severity : Nat) : Layout :=
  [(0x00, 2, seq), (0x02, 1, codeIn [.shock, .drop, .fallNoImpact] f.kind), (0x03, 1, codeIn [.active, .standby, .off] s.psd.platform),
    (0x04, 4, s.seconds.toNat), (0x08, 2, f.fall), (0x0A, 2, if f.kind = .shock then 0 else dropHeight f.fall), (0x0C, 2, f.peak),
    (0x0E, 1, codeOf axes f.axis), (0x0F, 1, severity), (0x10, 2, f.overs), (0x12, 2, f.rebounds),
    (0x14, 1, codeSet [Nat.ble 1 severity, Nat.ble 2 severity, Nat.ble 2 severity, Nat.ble 3 severity]),
    (0x15, 1, (s.bay .a).glitches), (0x16, 1, (s.bay .b).glitches)]

/-! ### Regions of the exchange memory (section 13.2) -/

/-- An address within a run. -/
def Mem.within (base size a : Nat) : Bool := Nat.ble base a && Nat.blt a (base + size)

/-- An address of the five status pages. -/
def Mem.inPages (a : Nat) : Bool := Mem.within 0x0100 0x380 a

/-- An address of the card slots. -/
def Mem.inSlots (a : Nat) : Bool := Mem.within 0x0800 0x800 a

/-- An address of the impact ring. -/
def Mem.inRing (a : Nat) : Bool := Mem.within 0x1000 0x200 a

/-- An address of the control block that the part writes: all of it but the read count Rd. -/
def Mem.inControl (a : Nat) : Bool := Mem.within 0x0040 0x40 a && a != 0x43

/-- An address that the part may write after power-on reset (R167). -/
def Mem.partWritten (a : Nat) : Bool := Mem.inPages a || Mem.inSlots a || Mem.inRing a || Mem.inControl a

end Sys2Proof.Machine
end

