-- ==== Sys2Proof/Certificates/Slice0/Obligations.lean ====
section
/-! DEFINITION. The statements for the provers. Each says, in its docstring, which rule of spec/ or which sentence it formalises. A command's
effect is said in three parts: the next state that `exec` answers, what that state holds, and, through `State.still`, that nothing else has
changed than what the reports between blocks may change. Where the effect of the command itself is followed by such reports, `u` is the
state that the command leaves and `State.commit s u` the state after the reports. -/

open Sys2Proof Sys2Proof.Machine

/-! ### The step, reset and start-up -/

/-- A step takes the command at the front of the queue and runs it with the queue's rest; on an empty queue the part idles (the model's
choice, log entry 9). -/
def Obligations.StepRunsTheFrontCommand : Prop :=
  (∀ (c : Instr) (rest : List Instr) (s : State), step { s with pending := c :: rest } = exec c { s with pending := rest }) ∧
    ∀ s : State, s.pending = [] → step s = .next s

/-- No command stops the part (log entry 7), and none touches the queue of those that wait, which is the model's own (log entry 9). -/
def Obligations.EveryCommandAnswersANextState : Prop :=
  ∀ (i : Instr) (s : State), ∃ t, exec i s = .next t ∧ t.pending = s.pending

/-- The values after power-on reset that the rules state, before anything is read from a pin: R1 (sources), R12, R14, R17, R21, R24 (path,
PFW#), R25 (gauges and their settings), R42 (bays, release window), R66, R67, R68, R82 (budget and its settings), R85 (charger), R97, R103
(zones: no temperature, level 0, no fault, not forced, the trips and the hysteresis), R109 (light), R121, R124, R132, R133 (backlight),
R139, R150 (motion and park), R159, R165 (classifier), R169, R171 (walker), R180 (platform). That the queue of commands is empty is the
model's own choice (log entry 9). -/
def Obligations.ResetHoldsTheStartingValues : Prop :=
  let s := State.reset
  (s.clock = 0 ∧ s.seconds = 0 ∧ s.pending = [] ∧ s.mem = []) ∧
  (s.feeding = .empty ∧ s.path.holds.isEmpty = true ∧ s.path.postImpact = none ∧ s.path.discharge = .sequential ∧ s.path.reserve = 10 ∧
    s.path.measured = 0 ∧ s.path.mode = .steady ∧ s.path.transfer = none ∧ s.lines.pfw = false) ∧
  (∀ x, (s.source x).presence = .absent ∧ (s.source x).closed = false ∧ (s.source x).mv = 0 ∧ (s.source x).ma = 0 ∧
    (s.source x).above = false ∧ (s.source x).limit = 0) ∧
  (s.smon.adapter = none ∧ s.smon.settle = none) ∧
  (s.smon.inlet.presence = .absent ∧ s.smon.override = 0 ∧ s.smon.inlet.tripHigh = true ∧ s.smon.inlet.tripCode = 20 ∧
    s.smon.packA.tripHigh = true ∧ s.smon.packA.tripCode = 2 ∧ s.smon.packB.tripHigh = true ∧ s.smon.packB.tripCode = 2) ∧
  (∀ x, (s.pack x).link = .none ∧ (s.pack x).identity = none ∧ (s.pack x).snapshot = none ∧ (s.pack x).suspect = false ∧
    (s.pack x).failureRun = 0 ∧ (s.pack x).forcedPending = false ∧ (s.pack x).op = none) ∧
  (s.glu.pollInterval = 1000 ∧ s.glu.retryLimit = 3 ∧ s.bayc.window = 20 ∧ s.budget.margin = 10 ∧ s.budget.swapMargin = 2000 ∧
    s.budget.base = 0) ∧
  (∀ z, (s.therm.zone z).temp = none ∧ (s.therm.zone z).level = 0 ∧ (s.therm.zone z).fault = false ∧ (s.therm.zone z).forced = false ∧
    (s.therm.zone z).hyst = 30) ∧
  ([s.therm.panel, s.therm.charger, s.therm.enclosure, s.therm.bayA, s.therm.bayB].map (fun z => (z.t1, z.t2, z.t3)) =
    [(550, 650, 750), (600, 700, 850), (450, 550, 650), (450, 550, 600), (450, 550, 600)]) ∧
  (∀ x, (s.bay x).lock = false ∧ (s.bay x).request = none ∧ (s.bay x).outcome = none ∧ (s.bay x).lastRemoval = none ∧
    (s.bay x).glitches = 0 ∧ (s.bay x).state = .empty ∧ (s.bay x).pressed = false) ∧
  (s.budget.token = .free ∧ s.budget.waiting = false ∧ s.budget.projection = none ∧
    s.budget.entries.map Entry.kind = [.lockA, .lockB, .backlight, .charger, .host, .host, .host, .host, .host, .host, .host, .host] ∧
    s.budget.entries.map Entry.priority = [7, 7, 7, 3, 0, 0, 0, 0, 0, 0, 0, 0] ∧
    ∀ e ∈ s.budget.entries, e.request = 0 ∧ e.grant = 0 ∧ e.state = .inactive) ∧
  (s.chg.state = .idle ∧ s.chg.bay = none ∧ s.chg.fast = false ∧ s.chg.en = false ∧ s.chg.enabled = true ∧ s.chg.fastAllowed = true ∧
    s.chg.stdRate = 25000 ∧ s.chg.fastRate = 45000) ∧
  (s.als.running = false ∧ s.als.gain = 8 ∧ s.als.f = 0 ∧ s.als.fault = false ∧ s.als.rejection = 160 ∧ s.als.rise = 8 ∧
    s.als.fall = 2) ∧
  (s.bld.mode = .auto ∧ s.bld.manual = 300 ∧ s.bld.offset = 0 ∧ s.bld.requested = 0 ∧ s.bld.demand = 0 ∧ s.bld.present = 0 ∧
    s.bld.claim = false ∧ s.bld.release = none ∧ s.bld.power = 9000 ∧ s.bld.nFull = 1000 ∧ s.bld.nNorm = 500) ∧
  (s.mot.detector = .idle ∧ s.mot.missed = 0 ∧ s.mot.stalled = false ∧ s.mot.ffThreshold = 350 ∧ s.mot.ffCount = 64 ∧
    s.mot.impThreshold = 3000 ∧ s.mot.parkOnShock = true ∧ s.mot.autoRelease = true ∧ s.park.state = .released ∧
    s.park.latch = false) ∧
  (s.icl.nextSeq = 1 ∧ s.icl.written = 0 ∧ s.icl.lost = 0 ∧ s.icl.rule0 = ⟨true, .peak, 6000, false, false, 1⟩ ∧
    s.icl.rule1 = ⟨true, .height, 500, false, false, 2⟩ ∧ s.icl.rule2 = ⟨true, .peak, 12000, false, true, 3⟩ ∧
    s.icl.rule3.enable = false) ∧
  (s.walk.state = .stopped ∧ s.walk.index = 0 ∧ s.walk.taken = false ∧ s.walk.recheckTimer = none ∧ s.walk.run = false ∧
    s.walk.recheck = 0 ∧ (∀ n, s.walk.resource n = .free) ∧ s.attn.bits = 0 ∧ s.attn.mask = 0) ∧
  (s.psd.platform = .off ∧ s.psd.taken0 = false ∧ s.psd.taken1 = false ∧ s.psd.candidate = none)

/-- The invariants of the statements below hold of the machine right after reset, but for one: that outside BROWNOUT some source feeds
(`State.fedSound` of the statement on the transfer record) does not, because the path is in STEADY there before R24's first closure, which a
POWER_ON_RESET makes (log entry 5). -/
def Obligations.ResetMeetsTheInvariants : Prop :=
  let s := State.reset
  s.memorySound ∧ s.tablesSound ∧ s.locksSound ∧ s.oneOpening ∧ s.levelsSound ∧ s.grantsSound ∧ s.bld.dutySound ∧ s.chg.powerSound ∧
    s.chargeSound ∧ s.freefallSound ∧ s.parkSound ∧ s.path.recordSound ∧ s.path.holdSound ∧ s.settingsSound ∧ s.slotsDistinct ∧
    s.brownoutSound ∧ s.switchesSound ∧ s.releasedSound ∧ s.bldHanded ∧ s.chgHanded ∧ s.capsSound ∧ s.boostSound ∧ s.fastSound ∧
    s.factorSound ∧ s.darkSound

/-- From R24, R42, R182, R183: A power-on reset starts the part afresh: nothing of the state before it but the commands that wait (and the
model's own turn counter, log entry 5) enters into it. PATH closes the first source whose comparator reads above its threshold (16,000 mV
for IN, 8,800 mV for a pack) and, for a pack, whose contact reads closed, or enters BROWNOUT; a bay with a closed contact enters IDENTIFYING
where its pack was closed, else SETTLING; the levels that stand become the first candidates. PFW# is asserted where nothing was closed. What
the light unit and the motion unit hold beside the values of their rules (no idle transaction, no finished measurement) is log entry 32's
choice. -/
def Obligations.PowerOnResetStartsThePartAfresh : Prop :=
  ∀ (pins : Pins) (s : State), ∃ u t, exec (.powerOnReset pins) s = .next t ∧
    exec (.powerOnReset pins) { State.reset with pending := s.pending, turn := s.turn } = .next t ∧
    t = State.commit { State.reset with pending := s.pending, turn := s.turn } u ∧
    ((16000 < pins.supply.inlet → u.smon.inlet.above = true) ∧ (pins.supply.inlet < 16000 → u.smon.inlet.above = false) ∧
      (8800 < pins.supply.packA → u.smon.packA.above = true) ∧ (pins.supply.packA < 8800 → u.smon.packA.above = false) ∧
      (8800 < pins.supply.packB → u.smon.packB.above = true) ∧ (pins.supply.packB < 8800 → u.smon.packB.above = false)) ∧
    u.feeding =
      (if u.smon.inlet.above then ⟨true, false, false⟩
        else if u.smon.packA.above && pins.detA then ⟨false, true, false⟩
        else if u.smon.packB.above && pins.detB then ⟨false, false, true⟩
        else ⟨false, false, false⟩) ∧
    u.path.mode = (if u.feeding.isEmpty then .brownout else .steady) ∧ u.path.pfw = u.feeding.isEmpty ∧
    (u.feeding.isEmpty = true → t.attnBit .brownout = true) ∧ (u.feeding.isEmpty = false → t.attnBit .sourceChange = true) ∧
    (u.smon.inlet.above = true → t.smon.inlet.presence = .present ∧ t.smon.adapter = some (adapterOf pins.adpId)) ∧
    (u.bay .a).state = (if pins.detA then (if u.feeding.packA then .identifying else .settling) else .empty) ∧
    (u.bay .b).state = (if pins.detB then (if u.feeding.packB then .identifying else .settling) else .empty) ∧
    ((t.bay .a).contact = pins.detA ∧ (t.bay .b).contact = pins.detB ∧ (t.bay .a).buttonLine = pins.btnA ∧
      (t.bay .b).buttonLine = pins.btnB) ∧
    t.psd = { Psd.reset with
      line0 := pins.ps0, line1 := pins.ps1, candidate := some (pins.ps0, pins.ps1), timer := some ⟨0, 2⟩, hrstLow := pins.hrstLow
      hrstTimer := if pins.hrstLow then some ⟨0, 2⟩ else none } ∧
    (t.clock = 0 ∧ t.seconds = 0 ∧ t.als = Als.reset ∧ t.icl = Icl.reset ∧ t.attn.mask = 0) ∧
    (t.walk.state = .stopped ∧ t.walk.index = 0 ∧ t.walk.run = false ∧ t.walk.recheck = 0) ∧
    t.mot = { Motion.reset with reading := true, stallTimer := some ⟨0, 20⟩ } ∧ t.park = { Park.reset with ack := pins.parkAck } ∧
    ∀ a, a < 0x40 → t.byte a = Mem.background a

/-! ### The clocks and the platform lines -/

/-- From R167, section 6.4: Each tick of the ms clock and of the seconds count adds one, and the control block shows the new value; nothing
else changes. From R183, R180, R49: A change of HRST#, of PS0 or PS1 and of a button starts its timer afresh from now: 2 ms, 2 ms and 50 ms.
HRST# going high discards its timer. A level that has not changed does nothing (the model's choice, log entry 1), and nothing else changes.
-/
def Obligations.ClocksCountAndLinesStartTheirTimers : Prop :=
  (∀ s : State,
     (∃ t, exec .msClockTick s = .next t ∧ t = { s with clock := s.clock + 1, mem := t.mem } ∧
       t.num 0x48 4 = (s.clock + 1).toNat ∧ ∀ a, a < 0x48 ∨ 0x4C ≤ a → t.byte a = s.byte a) ∧
     (∃ t, exec .secondsTick s = .next t ∧ t = { s with seconds := s.seconds + 1, mem := t.mem } ∧
       t.num 0x4C 4 = (s.seconds + 1).toNat ∧ ∀ a, a < 0x4C ∨ 0x50 ≤ a → t.byte a = s.byte a)) ∧
  ∀ s : State,
    (∀ low, exec (.hrstChange low) s = .next
      (if s.psd.hrstLow = low then s
        else { s with psd := { s.psd with hrstLow := low, hrstTimer := if low then some ⟨s.clock, 2⟩ else none } })) ∧
    (∀ p0 p1, exec (.psLineChange p0 p1) s = .next
      (if s.psd.line0 = p0 ∧ s.psd.line1 = p1 then s
        else { s with psd := { s.psd with line0 := p0, line1 := p1, candidate := some (p0, p1), timer := some ⟨s.clock, 2⟩ } })) ∧
    ∀ x down, exec (.buttonChange x down) s = .next
      (if (s.bay x).buttonLine = down then s
        else s.setBayRec x { s.bay x with buttonLine := down, debounce := some ⟨s.clock, 50⟩ })

/-- From R179: A platform reset, by a CONTROL write with SOFT_RESET set and by the HRST# deglitch: the walker is STOPPED at index 0 with RUN
and RECHECK 0, each held entry is orphaned and its card returned ABORTED, ATTN holds the level bits whose condition holds and CARD_DONE
where a card was returned, MASK is 0, the control block shows the walker, and nothing else changes. -/
def Obligations.PlatformResetStopsTheWalker : Prop :=
  ∀ (i : Instr) (s s0 : State),
    (∃ v, i = .softReset v ∧ s0 = { s with miso := [] }) ∨
      (∃ h, i = .hrstDeglitchExpiry ∧ s.psd.hrstTimer = some h ∧ s0 = { s with psd := { s.psd with hrstTimer := none } }) →
    ∃ t, exec i s = .next t ∧ t = { s0 with walk := t.walk, attn := t.attn, mem := t.mem } ∧
      t.walk = { state := .stopped, index := 0, taken := false, recheckTimer := none, run := false, recheck := 0
                 bayA := s.walk.bayA.afterReset, bayB := s.walk.bayB.afterReset, park := s.walk.park.afterReset } ∧
      t.attn.mask = 0 ∧ t.attnLine = false ∧
      (∀ b, t.attnBit b = true ↔
        s.condition b = true ∨ (b = .cardDone ∧ ∃ n slot tag, s.walk.resource n = .held slot tag)) ∧
      (∀ n slot tag, s.slotsDistinct → s.walk.resource n = .held slot tag → t.returned slot tag .aborted 0 s.clock) ∧
      t.byte 0x40 = 1 ∧ t.byte 0x41 = 0 ∧
      ∀ a, a ≠ 0x40 → a ≠ 0x41 →
        (∀ n slot tag, s.walk.resource n = .held slot tag → a < Mem.slot slot ∨ Mem.slot slot + 8 ≤ a) → t.byte a = s.byte a

/-- From R180, R181, R118: PSD takes its candidate: (1, 1) is ACTIVE, (0, 1) STANDBY, (0, 0) OFF, and (1, 0) keeps the state. The control
block shows the state and the pair; PLATFORM_STATE is raised for a change of state and for the illegal pair. Entering ACTIVE starts the
light run and its 300 ms fault timer; leaving it stops the run. -/
def Obligations.DeglitchedPairBecomesThePlatformState : Prop :=
  ∀ (s : State) (p0 p1 : Bool) (tm : Timer), s.psd.timer = some tm → s.psd.candidate = some (p0, p1) →
    let p := if p0 && p1 then Platform.active else if p1 then .standby else if p0 then s.psd.platform else .off
    let l := s.als
    ∃ t, exec .psDeglitchExpiry s = .next t ∧
      t.still = ({ s with
        psd := { s.psd with platform := p, taken0 := p0, taken1 := p1, candidate := none, timer := none }
        als :=
          if p = s.psd.platform then l
          else if p = .active then
            { l with running := true, faultTimer := if l.fault then none else some ⟨s.clock, 300⟩,
                     cycle := if l.idling then none else some .starting }
          else if s.psd.platform = .active then
            { l with running := false, cycle := none, integration := none, wait := none, faultTimer := none, idling := true }
          else l } : State).still ∧
      s.attnWithin t ∧ (p ≠ s.psd.platform ∨ (p0 = true ∧ p1 = false) → t.attnBit .platformState = true) ∧
      (t.byte 0x45).toNat = p.code ∧ (t.byte 0x46).toNat = p0.toNat + 2 * p1.toNat

/-! ### The sources and the power path -/

/-- From R2, R21, R23: A sense sample records the three voltages up to 25,500 mV and the three currents within −32,768..+32,767 mA; the
measured load is the sum of floor(voltage × current / 1000) over the closed sources whose current is positive; the power page is rewritten
whole, its update count grown by 2. From R184, R41, R62, R76, R96, section 13.5: The power page and the budget page then hold each field of
their tables at its offset, in its size and code, and 0 in every unassigned byte. That bit 3 of a pack's flags does not count an
identification that still waits is log entry 43's choice. -/
def Obligations.SenseSampleRecordsReadingsAndLoad : Prop :=
  ∀ (i a b : Reading) (s : State),
    let term (e : SourceEntry) (r : Reading) : Nat :=
      if e.closed = true ∧ 0 < clampInt (-32768) 32767 r.ma then min r.mv 25500 * (clampInt (-32768) 32767 r.ma).toNat / 1000 else 0
    ∃ t, exec (.senseSample i a b) s = .next t ∧
      t = { s with
        smon := { s.smon with
          inlet := { s.smon.inlet with mv := min i.mv 25500, ma := clampInt (-32768) 32767 i.ma }
          packA := { s.smon.packA with mv := min a.mv 25500, ma := clampInt (-32768) 32767 a.ma }
          packB := { s.smon.packB with mv := min b.mv 25500, ma := clampInt (-32768) 32767 b.ma } }
        path := { s.path with measured := term s.smon.inlet i + term s.smon.packA a + term s.smon.packB b }
        mem := t.mem } ∧
      (s.tablesSound → t.num 0x100 2 = (s.num 0x100 2 + 2) % 65536 ∧
        (∀ k, k < 214 → t.byte (0x102 + k) = (powerImage t t.clock).getD k 0) ∧
        t.holdsLayout 0x100 2 0xD8 t.powerLayout ∧ t.holdsLayout 0x380 2 0xE4 t.budgetLayout ∧
        ∀ c, (c < 0x100 ∨ 0x1D8 ≤ c) → (c < 0x380 ∨ 0x464 ≤ c) → t.byte c = s.byte c)

/-- From R4, R5, R18, R22: A changed comparator output is recorded and SOURCE_CHANGE raised. IN going ABOVE while ABSENT starts its 250 ms
settle; IN going BELOW becomes ABSENT, without class or settle. A source that goes BELOW is left with its switch OPEN. An output that has
not changed does nothing (the model's choice, log entry 1). From R5, R6: The inlet settle ends: IN is PRESENT with the class that ADP_ID
gives, and SOURCE_CHANGE is raised. -/
def Obligations.SourcesComeAndGoByTheirComparators : Prop :=
  (∀ (x : Source) (above : Bool) (s : State),
     (((s.source x).above = above ∧ s.reports = []) → exec (.comparatorTrip x above) s = .next s) ∧
     ((s.source x).above ≠ above →
       let s1 := s.setSource x { s.source x with above }
       ∃ u t, exec (.comparatorTrip x above) s = .next t ∧ t = State.commit s u ∧
         t.still = (match x, above with
           | .inlet, true =>
             if s.smon.inlet.presence = .absent then
               { s1 with smon := { s1.smon with
                 inlet := { s1.smon.inlet with presence := .settling }, settle := some ⟨s.clock, 250⟩, adapter := none } }
             else s1
           | .inlet, false =>
             if s.smon.inlet.presence = .absent then s1
             else { s1 with smon := { s1.smon with
               inlet := { s1.smon.inlet with presence := .absent }, settle := none, adapter := none } }
           | .packA, _ => s1
           | .packB, _ => s1 : State).still ∧
         (above = false → (u.source x).closed = false) ∧ s.attnWithin t ∧ t.attnBit .sourceChange = true)) ∧
  ∀ (mv : Nat) (s : State) (tm : Timer), s.smon.settle = some tm →
    ∃ t, exec (.inSettleExpiry mv) s = .next t ∧
      t.still = ({ s with smon := { s.smon with
        inlet := { s.smon.inlet with presence := .present }
        settle := none
        adapter := some (if mv < 300 then .unknown else if mv < 900 then .mw45 else if mv < 1500 then .mw65
          else if mv < 2100 then .mw90 else if mv < 2700 then .mw130 else .unknown) } } : State).still ∧
      s.attnWithin t ∧ t.attnBit .sourceChange = true

/-- From R16, R17: The transfer settle ends in MAKING: the outgoing switches open, the record is removed, the path is STEADY and an
evaluation follows. The POST_IMPACT timer ends: POST_IMPACT leaves the hold set, and where that empties it in PAUSED the transfer goes on
with a fresh 20 ms settle and its original start. -/
def Obligations.TransferAndHoldTimersEnd : Prop :=
  ∀ s : State,
    (∀ r, s.path.mode = .making → s.path.transfer = some r →
      ∃ u t, exec .transferSettleExpiry s = .next t ∧ t = State.commit s u ∧ t.still = s.still ∧
        u.feeding = s.feeding.less r.outgoing ∧ u.path = { s.path with mode := .steady, transfer := none } ∧
        Report.evaluate false ∈ u.reports ∧ s.attnWithin t ∧ t.attnBit .sourceChange = true) ∧
    (∀ tm, s.path.postImpact = some tm →
      ∃ u t, exec .postImpactExpiry s = .next t ∧ t = State.commit s u ∧
        t.still = ({ s with path := { s.path with holds := { s.path.holds with postImpact := false }, postImpact := none } } : State).still ∧
        (∀ r, s.path.mode = .paused → s.path.transfer = some r → s.path.holds = ⟨false, true, false⟩ →
          u.path.mode = .making ∧ u.path.transfer = some { r with settle := some ⟨s.clock, 20⟩ } ∧ u.feeding = s.feeding) ∧
        s.attnWithin t)

/-! ### Packs and gauge links -/

/-- From R27, R30, R33, R34: A failed attempt, by NAK or timeout, is made again while the read has failed fewer times than the retry limit.
At the limit it ends its operation: a poll adds one to the failure run, held at 3, and the link is DEGRADED, or LOST from 3 on and while it
was LOST, the snapshot kept; the identification of a bay empties the record and leaves the bay UNUSABLE; that of a card does the same and
returns the card LINK_FAILED with detail 0xFF. The record then goes to its zone by R99 where the link changed. That an emptied record keeps
its failure run is log entry 26 (DEDUCED). -/
def Obligations.FailedGaugeAttemptsAreRetriedThenCounted : Prop :=
  ∀ (i : Instr) (x : Bay) (s : State) (o : GaugeOp),
    (i = .gaugeAttemptNak x ∨ i = .gaugeAttemptTimeout x) → (s.pack x).op = some o →
    let p := s.pack x
    let run := min 3 (p.failureRun + 1)
    let link : Link := if p.link = .lost ∨ 3 ≤ run then .lost else .degraded
    let empty : PackRecord := { p with link := .none, identity := none, snapshot := none }
    (o.failed < s.glu.retryLimit → s.reports = [] → exec i s = .next (s.setPack x { p with op := some { o with failed := o.failed + 1 } })) ∧
    (s.glu.retryLimit ≤ o.failed → o.kind = .poll ∨ o.kind = .reident →
      ∃ t, exec i s = .next t ∧
        t.still = ({ s.setPack x { p with
            failureRun := run, link, identWaiting := false } with
          therm := t.therm } : State).still ∧
        t.therm = (if p.link = link then s.therm else s.therm.withPack x { p with link } false) ∧
        (∀ z, z ≠ bayZone x → t.therm.zone z = s.therm.zone z) ∧ s.attnWithin t ∧
        (p.link ≠ .lost → 3 ≤ run → t.attnBit .packLink = true)) ∧
    (s.glu.retryLimit ≤ o.failed → o.kind = .identBay →
      ∃ u t, exec i s = .next t ∧ t = State.commit s u ∧ t.still = ({ s.setPack x empty with therm := t.therm } : State).still ∧
        t.therm = s.therm.withPack x empty false ∧
        (∀ z, z ≠ bayZone x → t.therm.zone z = s.therm.zone z) ∧ (u.bay x).state = .unusable ∧ (u.pack x).op = none ∧
        s.attnWithin t ∧ t.attnBit .bayChange = true) ∧
    (s.glu.retryLimit ≤ o.failed → o.kind = .identCard →
      ∃ u t, exec i s = .next t ∧ t = State.commit s u ∧ t.still = ({ s.setPack x empty with therm := t.therm } : State).still ∧
        t.therm = s.therm.withPack x empty false ∧
        (u.bay x).state = .unusable ∧
        ∀ slot tag, s.walk.resource (bayResource x) = .held slot tag →
          u.returned slot tag .linkFailed 0xFF s.clock ∧ u.walk.resource (bayResource x) = .free ∧ u.attnBit .cardDone = true)

/-- From R27 to R29, R31: A read that succeeds joins the values gathered. The eighth value of a poll, or of a re-identifying poll after its
three identity values, installs the snapshot: mV, current with its sign turned, temperature less 2,732, charge up to 100 %, the two
capacities, the greatest power, the alarms and the present time; the failure run is 0 and the link ONLINE, PACK_LINK raised where it was
LOST; the zone of the pack takes the record by R99, first the change of link, where there is one, then the snapshot (log entry 14). The end
of a poll interval begins a poll, a re-identifying one of a SUSPECT pack. -/
def Obligations.PollsGatherEightValuesIntoASnapshot : Prop :=
  (∀ (x : Bay) (v : Half) (al : Alarms) (s : State) (o : GaugeOp), (s.pack x).op = some o →
    let p := s.pack x
    let n := o.gathered.length + 1
    (s.reports = [] → n < 3 ∨ (o.kind = .poll ∧ n < 8) ∨ (o.kind = .reident ∧ 3 < n ∧ n < 11) →
      exec (.gaugeAttemptDone x v al) s =
        .next (s.setPack x { p with op := some { o with gathered := o.gathered ++ [v.toNat], failed := 0 } })) ∧
    ∀ (front : List Nat) (mv ma temp charge rem full maxp : Nat), o.gathered = front ++ [mv, ma, temp, charge, rem, full, maxp] →
      (o.kind = .poll ∧ front = []) ∨ (o.kind = .reident ∧ front.length = 3) → temp ≤ 35499 →
      ∃ t, exec (.gaugeAttemptDone x v al) s = .next t ∧
        t.still = ({ s.setPack x { p with
            snapshot := some
              { mv, ma := if ma = 32768 then 32767 else -signed16 ma, temp := (temp : Int) - 2732, charge := min 100 charge
                remaining := rem, full, maxPower := maxp, alarms := al, stamp := s.clock }
            failureRun := 0, link := .online, identWaiting := false } with
          therm := t.therm } : State).still ∧
        (let new := { t.pack x with link := .online }
        t.therm = (if p.link = .online then s.therm else s.therm.withPack x new false).withPack x new true) ∧
        (∀ z, z ≠ bayZone x → t.therm.zone z = s.therm.zone z) ∧ s.attnWithin t ∧ (p.link = .lost → t.attnBit .packLink = true)) ∧
  ∀ (x : Bay) (s : State) (tm : Timer), (s.pack x).interval = some tm → s.reports = [] →
    ∃ t, exec (.pollIntervalExpiry x) s = .next t ∧
      t = { s.setPack x { s.pack x with
              op := some ⟨if (s.pack x).suspect then .reident else .poll, [], 0, false⟩, interval := none, forcedPending := false } with
            mem := t.mem }

/-- From R33 to R36: The third value of an identification or of a re-identifying poll: a cell count of 3 or 4 installs the identity and
clears SUSPECT unless a mark arrived meanwhile; an identification makes the link ONLINE with a run of 0 and the bay SEATED (from
IDENTIFYING, or from UNUSABLE for a card's) and a poll begins, its card returned OK with the identity. Any other count empties the record,
and the bay of an identification becomes UNUSABLE. From R57: A release in PREPARING whose pack fails a re-identifying poll so ends
REFUSED_STATE with detail 4, the lock request 0, the projection gone, and PATH is told of the loss. The zone takes the record by R99. That
an emptied record keeps its failure run is log entry 26 (DEDUCED); a cell count above 255 (log entry 29) and a card that waits for the poll
(log entry 25) are left out by hypothesis. -/
def Obligations.IdentificationSeatsOrBarsTheBay : Prop :=
  ∀ (x : Bay) (design : Half) (al : Alarms) (s : State) (o : GaugeOp) (serial cells : Nat),
    (s.pack x).op = some o → o.gathered = [serial, cells] →
    let p := s.pack x
    let installed : PackRecord := { p with identity := some ⟨serial, cells, design.toNat⟩, suspect := p.suspect && o.marked }
    let empty : PackRecord := { p with link := .none, identity := none, snapshot := none }
    (cells = 3 ∨ cells = 4 →
      (o.kind = .identBay ∨ o.kind = .identCard →
        ∃ u t, exec (.gaugeAttemptDone x design al) s = .next t ∧ t = State.commit s u ∧
          t.still = ({ s.setPack x { installed with link := .online, failureRun := 0 } with therm := t.therm } : State).still ∧
          t.therm = (if p.link = .online then s.therm else s.therm.withPack x { installed with link := .online } false) ∧
          (∀ z, z ≠ bayZone x → t.therm.zone z = s.therm.zone z) ∧
          (o.kind = .identBay ∨ (s.bay x).state = .unusable → (u.bay x).state = .seated ∧ t.attnBit .bayChange = true) ∧
          (u.pack x).op = some ⟨if p.suspect && o.marked then .reident else .poll, [], 0, false⟩ ∧ s.attnWithin t ∧
          ∀ slot tag, o.kind = .identCard → s.walk.resource (bayResource x) = .held slot tag →
            u.returned slot tag .ok 0 s.clock ∧ u.shows slot [(0x0A, u16 serial), (0x0C, u8 cells), (0x0E, u16 design.toNat)] ∧
              u.walk.resource (bayResource x) = .free) ∧
      (o.kind = .reident →
        ∃ u t, exec (.gaugeAttemptDone x design al) s = .next t ∧ t = State.commit s u ∧ t.still = (s.setPack x installed).still ∧
          (u.pack x).op = some { o with gathered := [serial, cells, design.toNat], failed := 0, marked := false } ∧
          s.attnWithin t)) ∧
    (cells ≠ 3 → cells ≠ 4 →
      (o.kind = .identBay ∨ o.kind = .identCard →
        ∃ u t, exec (.gaugeAttemptDone x design al) s = .next t ∧ t = State.commit s u ∧
          t.still = ({ s.setPack x empty with therm := t.therm } : State).still ∧ t.therm = s.therm.withPack x empty false ∧
          (u.bay x).state = .unusable ∧ s.attnWithin t ∧
          ∀ slot tag, o.kind = .identCard → cells ≤ 255 → s.walk.resource (bayResource x) = .held slot tag →
            u.returned slot tag .linkFailed cells s.clock) ∧
      (o.kind = .reident → p.identWaiting = false →
        ∃ u t, exec (.gaugeAttemptDone x design al) s = .next t ∧ t = State.commit s u ∧
          t.still = ({ s.setPack x empty with therm := t.therm } : State).still ∧ t.therm = s.therm.withPack x empty false ∧
          ((s.bay x).state = .seated ∨ (s.bay x).state = .preparing → (u.bay x).state = .unusable) ∧
          ((s.bay x).state = .preparing →
            ((u.bay x).prepare = none ∧ (u.bay x).request = none ∧ (u.budget.entry (lockIndex x)).request = 0 ∧
              (∀ j, u.budget.projection = some j → j.bay ≠ x) ∧ Report.sourceLost x ∈ u.reports ∧ t.attnBit .bayChange = true) ∧
            ∀ q, (s.bay x).request = some q →
              (u.bay x).outcome = some ⟨q.origin, .refusedState, 4, s.clock⟩ ∧
                (q.origin = .button → t.attnBit .releaseRefused = true) ∧
                ∀ slot n tag, q.origin = .card slot → s.walk.resource (bayResource x) = .held n tag → s.tablesSound →
                  u.returned n tag .refusedState 4 s.clock ∧ u.walk.resource (bayResource x) = .free) ∧
          ((s.bay x).state = .released → (u.bay x).state = .released) ∧ s.attnWithin t))

/-! ### Bays -/

/-- From R43, R44: A contact that opens starts the 20 ms removal timer in every bay state but EMPTY, where nothing else happens, and
SETTLING, which returns to EMPTY with its settle discarded. A contact that has not changed does nothing (the model's choice, log entry 1).
From R43, R46, R60: A contact that closes in EMPTY starts the 500 ms settle in SETTLING. One that recloses before the removal is confirmed
is a glitch, counted up to 255, and marks a pack with a link SUSPECT; in RELEASED it is none, and there the deferred end of the window is
applied: the lock off, the bay SEATED where the pack has an identity, else UNUSABLE. -/
def Obligations.ContactChangesMoveTheBay : Prop :=
  (∀ (x : Bay) (s : State), s.reports = [] →
     let b := s.bay x
     (∀ c, b.contact = c → exec (.contactChange x c) s = .next s) ∧
     (b.contact = true →
       (b.state = .empty → ∃ t, exec (.contactChange x false) s = .next t ∧ t = { s.setBayRec x { b with contact := false } with mem := t.mem }) ∧
       (b.state ≠ .empty → b.state ≠ .settling → ∃ t, exec (.contactChange x false) s = .next t ∧
         t = { s.setBayRec x { b with contact := false, removal := some ⟨s.clock, 20⟩ } with mem := t.mem }) ∧
       (b.state = .settling → ∃ u t, exec (.contactChange x false) s = .next t ∧ t = State.commit s u ∧
         t.still = (s.setBayRec x { b with contact := false, settle := none }).still ∧
         u.bay x = { b with contact := false, settle := none, state := .empty, lock := false } ∧ s.attnWithin t))) ∧
  ∀ (x : Bay) (s : State) (tm : Timer), (s.bay x).contact = false →
    let b := s.bay x
    let p := s.pack x
    (b.state = .empty → ∃ u t, exec (.contactChange x true) s = .next t ∧ t = State.commit s u ∧
      t.still = (s.setBayRec x { b with contact := true, settle := some ⟨s.clock, 500⟩ }).still ∧
      u.bay x = { b with contact := true, settle := some ⟨s.clock, 500⟩, state := .settling, lock := false } ∧ s.attnWithin t) ∧
    (b.state ≠ .empty → b.state ≠ .released → b.removal = some tm →
      ∃ u t, exec (.contactChange x true) s = .next t ∧ t = State.commit s u ∧
        t.still = ((s.setBayRec x { b with contact := true, removal := none, glitches := min 255 (b.glitches + 1) }).setPack x
          { p with suspect := p.suspect || p.link != .none }).still ∧
        (u.bay x).state = b.state ∧ s.attnWithin t) ∧
    (b.state = .released → b.removal = some tm → b.endDeferred = false → s.reports = [] →
      ∃ t, exec (.contactChange x true) s = .next t ∧
        t = { s.setBayRec x { b with contact := true, removal := none } with mem := t.mem }) ∧
    (b.state = .released → b.removal = some tm → b.endDeferred = true →
      ∃ u t, exec (.contactChange x true) s = .next t ∧ t = State.commit s u ∧
        t.still = (s.setBayRec x { b with contact := true, removal := none }).still ∧
        (u.bay x).state = (if p.identity.isSome then .seated else .unusable) ∧ (u.bay x).lock = false ∧
        (u.bay x).endDeferred = false ∧ (u.budget.entry (lockIndex x)).request = 0 ∧ s.attnWithin t ∧ t.attnBit .bayChange = true)

/-- From R45, R40, R7, R44, R33: A confirmed removal leaves the bay EMPTY with its timers, window and lock off, its pack ABSENT, its gauge
record as after power-on, the last removal NORMAL from RELEASED and UNANNOUNCED from any other state; its lock request 0 and no projection
of it left; a release in PREPARING ends REMOVED. The end of the bay settle makes the bay IDENTIFYING and starts its identification. Each
raises BAY_CHANGE, and the zone of the bay takes the new record by R99. -/
def Obligations.RemovalAndSettleOfABay : Prop :=
  ∀ (x : Bay) (s : State) (tm : Timer),
    let b := s.bay x
    (b.removal = some tm → ∃ u t, exec (.removalConfirmExpiry x) s = .next t ∧ t = State.commit s u ∧
      t.still = ({ (s.setBayRec x { b with
          removal := none, settle := none
          lastRemoval := some (if b.state = .released then .normal else .unannounced) }).setPack x PackRecord.reset with
        therm := t.therm } : State).still ∧
      t.therm = s.therm.withPack x PackRecord.reset false ∧
      ((u.bay x).state = .empty ∧ (u.bay x).lock = false ∧ (u.bay x).window = none ∧ (u.bay x).endDeferred = false) ∧
      (u.source (packSource x)).presence = .absent ∧ u.pack x = PackRecord.reset ∧ (u.budget.entry (lockIndex x)).request = 0 ∧
      Report.sourceLost x ∈ u.reports ∧ (∀ j, u.budget.projection = some j → j.bay ≠ x) ∧
      (∀ q, b.state = .preparing → b.request = some q →
        (u.bay x).request = none ∧ (u.bay x).prepare = none ∧ (u.bay x).outcome = some ⟨q.origin, .removed, 0, s.clock⟩) ∧
      s.attnWithin t ∧ t.attnBit .bayChange = true) ∧
    (b.settle = some tm → ∃ u t, exec (.baySettleExpiry x) s = .next t ∧ t = State.commit s u ∧
      t.still = ({ (s.setBayRec x { b with settle := none }).setPack x
          { s.pack x with link := .ident, identWaiting := false } with therm := t.therm } : State).still ∧
      t.therm = s.therm.withPack x { s.pack x with link := .ident } false ∧
      (u.bay x).state = .identifying ∧ (u.bay x).lock = false ∧ (u.pack x).op = some ⟨.identBay, [], 0, false⟩ ∧
      s.attnWithin t ∧ t.attnBit .bayChange = true)

/-- From R49 to R53, R59: The debounced button takes the line's level. From RELEASED to PRESSED it is a release request, settled by the
first check that holds: the other bay open (REFUSED_STATE, 1); RELEASED (the window restarts, OK); an identification in flight (3); neither
SEATED nor UNUSABLE (2); UNUSABLE, where the lock's own grant decides; SEATED, where the projection decides. A refusal raises
RELEASE_REFUSED and changes nothing else. That a window which restarts keeps a deferred end is log entry 35 (DEDUCED). The projection, the
recompute and the lock's grant that the clauses use are those of the statements on the budget and on the end of a release. -/
def Obligations.DebouncedPressIsAReleaseRequest : Prop :=
  ∀ (x : Bay) (s : State) (tm : Timer), (s.bay x).debounce = some tm → s.reports = [] →
    let b := s.bay x
    let s1 := s.setBayRec x { b with debounce := none, pressed := b.buttonLine }
    let closed := (s.bay (otherBay x)).state.opening = false
    let ended (s2 : State) (r : Result) (d : Nat) : State :=
      s2.setBayRec x { b with debounce := none, pressed := b.buttonLine, outcome := some ⟨.button, r, d, s.clock⟩ }
    (b.buttonLine = false ∨ b.pressed = true →
      ∃ t, exec (.buttonDebounceExpiry x) s = .next t ∧ t = { s1 with mem := t.mem }) ∧
    (b.buttonLine = true → b.pressed = false →
      (∀ d, (d = 1 ∧ ¬ closed) ∨ (d = 3 ∧ closed ∧ (b.state = .seated ∨ b.state = .unusable) ∧ (s.pack x).cardIdent = true) ∨
          (d = 2 ∧ closed ∧ b.state ≠ .released ∧ b.state ≠ .seated ∧ b.state ≠ .unusable) →
        ∃ t, exec (.buttonDebounceExpiry x) s = .next t ∧ t = { ended s .refusedState d with attn := t.attn, mem := t.mem } ∧
          s.attnWithin t ∧ t.attnBit .releaseRefused = true) ∧
      (closed → b.state = .released →
        ∃ t, exec (.buttonDebounceExpiry x) s = .next t ∧
          t = { s.setBayRec x { b with
                  debounce := none, pressed := true, window := some ⟨s.clock, 1000 * s.bayc.window⟩
                  outcome := some ⟨.button, .ok, s.bayc.window, s.clock⟩ } with mem := t.mem }) ∧
      (closed → b.state = .seated → (s.pack x).cardIdent = false →
        (∀ d, (s.project x).refusal = some d →
          ∃ t, exec (.buttonDebounceExpiry x) s = .next t ∧
            t = { ended (s.keepTest (s.project x)) .refusedSource d with attn := t.attn, mem := t.mem } ∧
            s.attnWithin t ∧ t.attnBit .releaseRefused = true) ∧
        ((s.project x).refusal = none → s.tablesSound →
          ∃ u t, exec (.buttonDebounceExpiry x) s = .next t ∧ t = State.commit s u ∧ t.still = s1.still ∧
            (u.bay x).state = .preparing ∧ (u.bay x).lock = false ∧ (u.bay x).request = some ⟨.button, s.clock⟩ ∧
            (u.bay x).prepare = some ⟨s.clock, 2000⟩ ∧
            u.budget.projection = some ⟨x, (s.project x).capacity, s.budget.base⟩ ∧
            (u.budget.entry (lockIndex x)).request = 2400 ∧ (u.budget.entry (lockIndex x)).floor = 2400 ∧
            Report.bayTest x ∈ u.reports ∧ s.attnWithin t ∧ t.attnBit .bayChange = true)) ∧
      (closed → b.state = .unusable → (s.pack x).cardIdent = false →
        ∃ u t, exec (.buttonDebounceExpiry x) s = .next t ∧ t = State.commit s u ∧ t.still = s1.still ∧ s.attnWithin t ∧
          (if ((s1.lockNow x).recompute false).lockGranted x then
            (u.bay x).state = .released ∧ (u.bay x).lock = true ∧ (u.bay x).window = some ⟨s.clock, 1000 * s.bayc.window⟩ ∧
              (u.bay x).outcome = some ⟨.button, .ok, s.bayc.window, s.clock⟩ ∧ t.attnBit .bayChange = true
          else
            (u.bay x).state = .unusable ∧ (u.budget.entry (lockIndex x)).request = 0 ∧
              (u.bay x).outcome = some ⟨.button, .refusedSource, 1, s.clock⟩ ∧ t.attnBit .releaseRefused = true)))

/-- From R56, R53, R60: At the prepare limit a PREPARING bay returns to SEATED with its lock request 0 and its projection removed; the
request ends HELD while a hold stands, else REFUSED_SOURCE with detail 4 while the lock has no full grant, else TIMEOUT. At the end of an
unused window the bay's lock is off and the bay SEATED where its pack has an identity, else UNUSABLE; a SEATED pack gets a forced poll;
while the contact is open the end is deferred and the window stays until it is applied. From R60, R74: A lock grant below 2,400 mW that
BUDGET hands over ends the window of a RELEASED bay in the same two ways, but once deferred not again; a greater one changes nothing there;
in PREPARING any grant makes the test of R54, and in any other state it does nothing. From R54, R58: The three conditions of PREPARING are
the open switch, a pack that is not charged and a lock grant of 2,400 mW; where they hold the release is complete: RELEASED, the lock
energized, the window started, the request ended OK with the window setting as detail, no projection. From R55, R80: A recheck is due in
PREPARING where the capacity or the base load differs from the projection record's, or is forced; accepted, the record is renewed and the
three conditions are tested; refused, the bay is SEATED, its lock request 0, its projection removed, and the request ends REFUSED_SOURCE
with detail 3. -/
def Obligations.PrepareLimitAndWindowEndARelease : Prop :=
  (∀ (x : Bay) (s : State) (tm : Timer),
    let b := s.bay x
    let r : Result × Nat :=
      if s.path.holds.isEmpty = false then (.held, 0)
      else if (s.budget.entry (lockIndex x)).grant < 2400 then (.refusedSource, 4) else (.timeout, 0)
    (b.state = .preparing → b.prepare = some tm →
      ∃ u t, exec (.prepareLimitExpiry x) s = .next t ∧ t = State.commit s u ∧ t.still = s.still ∧
        (u.bay x).state = .seated ∧ (u.bay x).lock = false ∧ (u.bay x).prepare = none ∧ (u.bay x).request = none ∧
        (u.budget.entry (lockIndex x)).request = 0 ∧ (∀ p, u.budget.projection = some p → p.bay ≠ x) ∧
        (∀ q, b.request = some q → (u.bay x).outcome = some ⟨q.origin, r.1, r.2, s.clock⟩ ∧
          (q.origin = .button → t.attnBit .releaseRefused = true)) ∧
        (∀ q slot n tag, b.request = some q → q.origin = .card slot → s.walk.resource (bayResource x) = .held n tag → s.tablesSound →
          u.returned n tag r.1 r.2 s.clock ∧ u.walk.resource (bayResource x) = .free) ∧
        s.attnWithin t ∧ t.attnBit .bayChange = true) ∧
    let polled (u : State) : Prop := (s.pack x).identity.isSome = true →
      ((s.pack x).op.isSome = true → (u.pack x).forcedPending = true) ∧
        ((s.pack x).op = none → (s.pack x).link = .online ∨ (s.pack x).link = .degraded ∨ (s.pack x).link = .lost →
          (u.pack x).op.isSome = true)
    (b.state = .released → b.window = some tm →
      (b.contact = true → ∃ u t, exec (.releaseWindowExpiry x) s = .next t ∧ t = State.commit s u ∧ t.still = s.still ∧
        (u.bay x).state = (if (s.pack x).identity.isSome then .seated else .unusable) ∧ (u.bay x).lock = false ∧
        (u.bay x).window = none ∧ (u.budget.entry (lockIndex x)).request = 0 ∧ polled u ∧ s.attnWithin t ∧
        t.attnBit .bayChange = true) ∧
      (b.contact = false → s.reports = [] → ∃ t, exec (.releaseWindowExpiry x) s = .next t ∧
        t = { s.setBayRec x { b with endDeferred := true } with mem := t.mem })) ∧
    ∀ grant : Nat,
      let t := s.take (.lockGrant x grant)
      (b.state = .released → grant < 2400 → b.endDeferred = false →
        (b.contact = true → t.still = s.still ∧ (t.bay x).state = (if (s.pack x).identity.isSome then .seated else .unusable) ∧
          (t.bay x).lock = false ∧ (t.bay x).window = none ∧ (t.budget.entry (lockIndex x)).request = 0 ∧ polled t ∧
          s.attnWithin t ∧ t.attnBit .bayChange = true) ∧
        (b.contact = false → t = s.setBayRec x { b with endDeferred := true })) ∧
      (b.state = .released → 2400 ≤ grant ∨ b.endDeferred = true → t = s) ∧ (b.state = .preparing → t = s.bayTest x) ∧
      (b.state ≠ .released → b.state ≠ .preparing → t = s)) ∧
  ∀ (x : Bay) (s : State),
    let b := s.bay x
    (s.releaseReady x = true ↔
      b.state = .preparing ∧ (s.source (packSource x)).closed = false ∧ s.chg.charging x = false ∧
        2400 ≤ (s.budget.entry (lockIndex x)).grant) ∧
    (s.releaseReady x = false → s.bayTest x = s) ∧
    (s.releaseReady x = true →
      let t := s.bayTest x
      ((t.bay x).state = .released ∧ (t.bay x).lock = true ∧ (t.bay x).window = some ⟨s.clock, 1000 * s.bayc.window⟩ ∧
        (t.bay x).prepare = none ∧ (t.bay x).request = none) ∧
      (∀ q, b.request = some q → (t.bay x).outcome = some ⟨q.origin, .ok, s.bayc.window, s.clock⟩) ∧
      (∀ p, t.budget.projection = some p → p.bay ≠ x) ∧ (t.source (packSource x)).presence = .absent ∧ s.attnWithin t ∧
      t.attnBit .bayChange = true) ∧
    ∀ force : Bool,
      let t := s.recompute force
      let due := ∃ p, s.budget.projection = some p ∧ (force = true ∨ s.capacityOf s.capacitySet ≠ p.capacity ∨ s.budget.base ≠ p.base)
      (s.preparing = none → t = s.computeTable) ∧
      (s.preparing = some x → ¬ due → t = s.computeTable) ∧
      (s.preparing = some x → due →
        let v := s.project x
        (t.budget.projCapacity = v.capacity ∧ t.budget.predicted = v.predicted ∧ s.attnWithin t) ∧
        (v.refusal = none → (t.bay x).state = .preparing ∧ t.budget.projection = some ⟨x, v.capacity, s.budget.base⟩ ∧
          Report.bayTest x ∈ t.reports) ∧
        ∀ d, v.refusal = some d →
          ((t.bay x).state = .seated ∧ (t.bay x).prepare = none ∧ (t.bay x).request = none ∧
            (t.budget.entry (lockIndex x)).request = 0) ∧
          (∀ p, t.budget.projection = some p → p.bay ≠ x) ∧
          (∀ q, b.request = some q → (t.bay x).outcome = some ⟨q.origin, .refusedSource, 3, s.clock⟩) ∧ t.attnBit .bayChange = true)

/-! ### Charger, zones, light and backlight -/

/-- From R92, R84: The RISING settle ends: where CHG holds the token, fast charging is allowed and the charging bay stays a candidate, the
rate is FAST and CHG asks for floor(fast rate × factor / 100), the factor being the one it holds, and drives the lower of that and its
grant. The FALLING settle ends: in HANDOVER the token becomes BACKLIGHT and charger waiting is set. From R92, R83, R84: CHG's claim stands
in CHARGING, and in PAUSED for the budget, with fast allowed; its beginning asks for the token and its end releases it, the rate STANDARD
and no settle left. An ask takes a FREE token and starts the RISING settle; it changes nothing in CHARGER; in BACKLIGHT and HANDOVER it sets
charger waiting. A release makes a CHARGER token FREE and a HANDOVER one BACKLIGHT, leaves any other, and charger waiting is clear. From
R89, R70, R95: An evaluation sets the request, 5,000 mW its floor, and a recompute follows, also where the value is as before (log entry
44); one that finds the state, the bay, the request and the commanded power as they were sets none. -/
def Obligations.RateSettlesEnd : Prop :=
  (∀ (s : State) (r : RateSettle), s.chg.settle = some r →
    (r.kind = .rising → s.chg.claim = true →
      ∃ u t, exec .risingSettleExpiry s = .next t ∧ t = State.commit s u ∧ t.still = s.still ∧ u.chg.settle = none ∧ s.attnWithin t ∧
        ∀ x, s.budget.token = .charger → s.chg.fastAllowed = true → s.chg.bay = some x → s.candidate x = true →
          let q := s.chg.fastRate * s.chg.factor / 100
          5000 ≤ q → 5000 ≤ s.chg.lastGrant →
          u.chg.state = .charging ∧ u.chg.bay = some x ∧ u.chg.fast = true ∧ u.chg.request = q ∧ u.chg.set = min q s.chg.lastGrant ∧
            u.chg.en = true ∧ u.chg.sel = x) ∧
    (r.kind = .falling →
      ∃ u t, exec .fallingSettleExpiry s = .next t ∧ t = State.commit s u ∧ t.still = s.still ∧ u.chg.settle = none ∧ s.attnWithin t ∧
        (s.budget.token = .handover → u.budget.token = .backlight ∧ u.budget.waiting = true) ∧
        (s.budget.token ≠ .handover → u = { s with chg := { s.chg with settle := none } }))) ∧
  ∀ s : State,
    let ask := s.chgAsk
    let release := s.chgRelease
    let e := s.chgEvaluate
    let told (t : State) : Prop := t.still = s.still ∧ s.attnWithin t ∧
      (t.budget.token ≠ s.budget.token ∨ t.budget.waiting ≠ s.budget.waiting → Report.derive ∈ t.reports)
    let tokenAs (t u : State) : Prop := t.budget.token = u.budget.token ∧ t.budget.waiting = u.budget.waiting
    (told ask ∧
      (s.budget.token = .free → ask.budget.token = .charger ∧ ask.budget.waiting = s.budget.waiting ∧
        ask.chg = { s.chg with settle := some ⟨.rising, ⟨s.clock, 200⟩⟩ }) ∧
      (s.budget.token = .charger → ask = s) ∧
      (s.budget.token = .backlight ∨ s.budget.token = .handover →
        ask.budget.token = s.budget.token ∧ ask.budget.waiting = true ∧ ask.chg = s.chg)) ∧
    (told release ∧ release.chg = s.chg ∧ release.budget.waiting = false ∧
      (s.budget.token = .charger → release.budget.token = .free) ∧
      (s.budget.token = .handover → release.budget.token = .backlight) ∧
      (s.budget.token = .free ∨ s.budget.token = .backlight → release.budget.token = s.budget.token)) ∧
    (e.chg.claim = true ↔
      e.chg.fastAllowed = true ∧ (e.chg.state = .charging ∨ (e.chg.state = .paused ∧ e.chg.pause = some .budget))) ∧
    (s.chg.claim = false → e.chg.claim = true → tokenAs e ask) ∧
    (s.chg.claim = true → e.chg.claim = false → tokenAs e release ∧ e.chg.fast = false ∧ e.chg.settle = none) ∧
    (s.chg.claim = e.chg.claim → tokenAs e s ∧ e.chg.settle = s.chg.settle) ∧
    let agrees := e.chg.state = s.chg.state ∧ e.chg.pause = s.chg.pause ∧ e.chg.bay = s.chg.bay ∧ e.chg.request = s.chg.request ∧
      e.chg.set = s.chg.set
    (agrees → e.budget.entries = s.budget.entries ∧ (Report.recompute ∈ e.reports → Report.recompute ∈ s.reports)) ∧
      (¬ agrees → Report.recompute ∈ e.reports ∧
        (s.tablesSound → (e.budget.entry 3).request = e.chg.request ∧ (e.budget.entry 3).floor = 5000))

/-- From R98, R102, R105, R106: A sampling gives each thermistor zone its reading and its level where the reading lies within −400..+1,250,
and else a fault with level 3; where PANEL's or ENCLOSURE's level moves, BLD has the new thermal factor, where CHARGER's or ENCLOSURE's
moves, CHG the new charge factor. From R102: The changes are handed one after the other in some order (log entry 3), each with all that it
reports before the next (log entry 19): BLD derives with the factor of the levels handed so far, CHG evaluates with its own, a bay zone
makes BUDGET recompute and CHG evaluate; a level that stays is handed to nobody. THERMAL_CHANGE is raised where a level moved,
THERMAL_CRITICAL where a zone is at level 3, SENSOR_FAULT where a zone has a fault. The thermal page then holds each field of its table.
Section 6.5: the backlight factor is the lower of 100, 75, 50, 25 by PANEL and 100, 100, 75, 50 by ENCLOSURE, the charge factor the lower of
100, 50, 25, 0 by CHARGER and 100, 75, 50, 0 by ENCLOSURE. From R99, R100: A pack zone after a hand-over of its record: by link NONE nothing
is known, level 0; by LOST it is forced, level 2, with the last snapshot's temperature and stamp (log entry 31), and stays so until a
snapshot installed since arrives (log entry 21); without a snapshot level 0; out of range a fault with level 3; else the snapshot's
temperature and the level of R101. -/
def Obligations.ThermistorSamplingUpdatesTheZones : Prop :=
  (∀ (p c e : Int) (s : State),
    let zone (z : Zone) (v : Int) : Zone :=
      if -400 ≤ v ∧ v ≤ 1250 then { z with temp := some v, stamp := s.clock, fault := false, forced := false, level := z.nextLevel v }
      else { z with temp := none, stamp := 0, fault := true, forced := false, level := 3 }
    let new : Therm := { s.therm with
      panel := zone s.therm.panel p, charger := zone s.therm.charger c, enclosure := zone s.therm.enclosure e }
    let factor : Nat :=
      if s.therm.panel.level ≠ new.panel.level ∨ s.therm.enclosure.level ≠ new.enclosure.level then
        min ([100, 75, 50].getD new.panel.level 25) ([100, 100, 75].getD new.enclosure.level 50)
      else s.bld.factor
    let charge : Nat :=
      if s.therm.charger.level ≠ new.charger.level ∨ s.therm.enclosure.level ≠ new.enclosure.level then
        min ([100, 50, 25].getD new.charger.level 0) ([100, 75, 50].getD new.enclosure.level 0)
      else s.chg.factor
    ∃ t, exec (.thermistorSampling p c e) s = .next t ∧
      t.still = ({ s with
        therm := new
        bld := { s.bld with factor }
        chg := { s.chg with factor := charge } } : State).still ∧
      (∃ (u : State) (l : List ZoneName), l.Perm (s.therm.moved new) ∧ t = State.commit s (State.handChanges new l s.therm u) ∧
        u = { s with therm := new, turn := u.turn, attn := u.attn, mem := u.mem }) ∧
      s.attnWithin t ∧ ((∃ z, (s.therm.zone z).level ≠ (new.zone z).level) → t.attnBit .thermalChange = true) ∧
      ((∃ z, (new.zone z).level = 3) → t.attnBit .thermalCritical = true) ∧
      ((∃ z, (new.zone z).fault = true) → t.attnBit .sensorFault = true) ∧
      (s.tablesSound → t.holdsLayout 0x300 2 0x6C t.therm.layout)) ∧
  (∀ t : Therm,
    t.backlightFactor = min ([100, 75, 50].getD t.panel.level 25) ([100, 100, 75].getD t.enclosure.level 50) ∧
      t.chargeFactor = min ([100, 50, 25].getD t.charger.level 0) ([100, 75, 50].getD t.enclosure.level 0)) ∧
  (∀ (s : State) (new h : Therm) (z : ZoneName) (l : List ZoneName),
    let bld (u : State) : State := u.derive (fun b => { b with factor := h.backlightFactor })
    let chg (u : State) : State := ({ u with chg := { u.chg with factor := h.chargeFactor } } : State).chgEvaluate
    let now := h.setZone z (new.zone z)
    State.handChanges new [] h s = s ∧ State.handChanges new (z :: l) h s = State.handChanges new l now (s.handLevel now z).settle ∧
      s.handLevel h .panel = bld s ∧ s.handLevel h .charger = chg s ∧ s.handLevel h .bayA = (s.report .recompute).chgEvaluate ∧
      s.handLevel h .bayB = (s.report .recompute).chgEvaluate ∧
      (∃ u : State, u = { s with turn := u.turn } ∧
        (s.handLevel h .enclosure = chg (bld u) ∨ s.handLevel h .enclosure = bld (chg u))) ∧
      ∀ r : Zone, let u := s.zoneInstall z r
        (r.level = (s.therm.zone z).level → u = { s with therm := s.therm.setZone z r, attn := u.attn, mem := u.mem }) ∧
          (r.level ≠ (s.therm.zone z).level → ∃ v : State, u = v.handLevel v.therm z ∧
            v = { s with therm := s.therm.setZone z r, attn := v.attn, mem := v.mem })) ∧
  ∀ (z : Zone) (p : PackRecord) (fresh : Bool),
    let unknown : Zone := { z with temp := none, stamp := 0, fault := false, forced := false, level := 0 }
    let lost : Zone := { z with
      temp := p.snapshot.map Snapshot.temp, stamp := (p.snapshot.map Snapshot.stamp).getD 0, fault := false, forced := true, level := 2 }
    let waits := z.forced = true ∧ fresh = false
    (p.link = .none → z.handed p fresh = unknown) ∧
    (p.link = .lost ∨ (p.link ≠ .none ∧ waits) → z.handed p fresh = lost) ∧
    (p.link ≠ .none → p.link ≠ .lost → ¬ waits →
      (p.snapshot = none → z.handed p fresh = unknown) ∧
      ∀ t, p.snapshot = some t →
        (t.temp < -400 ∨ 1250 < t.temp →
          z.handed p fresh = { z with temp := none, stamp := 0, fault := true, forced := false, level := 3 }) ∧
        (-400 ≤ t.temp → t.temp ≤ 1250 →
          z.handed p fresh =
            { z with temp := some t.temp, stamp := t.stamp, fault := false, forced := false, level := z.nextLevel t.temp }))

/-- From R110, R111, R117, R118: The light cycle: the start transaction's end begins the 100 ms integration, its end the read, a failed
transaction 100 ms of waiting, its end a new cycle; the end of the idle transaction, failed or not, begins the first cycle of a run that
waits for it; the fault timer's end is a fault with SENSOR_FAULT. In any other cycle state each does nothing (the model's choice, log entry
10). From R120, R137, section 13.5: The light and backlight page then holds each field of its table. From R110, R112, R116, R117: A read
that completes is processed: a saturated sample above gain 1 is discarded and the gain lowered; any other gives a raw lux, a next gain and a
new F. The completion is stamped, a fault ends, the fault timer starts afresh at 300 ms, the next cycle starts, and a changed F is handed to
BLD. That an idle transaction which fails rewrites no page is log entry 42 (DEDUCED). -/
def Obligations.LightCycleAndItsReads : Prop :=
  (∀ s : State,
     let l := s.als
     let set (l : Als) : State := { s with als := l }
     exec .lightStartDone s = .next
       (if l.cycle = some .starting then set { l with cycle := some .integrating, integration := some ⟨s.clock, 100⟩ } else s) ∧
     exec .integrationExpiry s = .next
       (if l.cycle = some .integrating then set { l with cycle := some .reading, integration := none } else s) ∧
     exec .lightWaitExpiry s = .next (if l.cycle = some .waiting then set { l with cycle := some .starting, wait := none } else s) ∧
     exec .lightIdleDone s = .next
       (if l.idling then set { l with idling := false, cycle := if l.running then some .starting else l.cycle } else s) ∧
     (∀ i, i = .lightTransactionNak ∨ i = .lightTransactionTimeout →
       (l.idling = true → exec i s = .next (set { l with idling := false, cycle := if l.running then some .starting else l.cycle })) ∧
       (l.idling = false → l.cycle = some .starting ∨ l.cycle = some .reading →
         ∃ t, exec i s = .next t ∧
           t = { set { l with integration := none, wait := some ⟨s.clock, 100⟩, cycle := some .waiting } with mem := t.mem }) ∧
       (l.idling = false → l.cycle ≠ some .starting → l.cycle ≠ some .reading → exec i s = .next s)) ∧
     (l.faultTimer = none → exec .lightFaultTimerExpiry s = .next s) ∧
     (∀ tm, l.faultTimer = some tm → ∃ t, exec .lightFaultTimerExpiry s = .next t ∧
       t = { set { l with fault := true, faultTimer := none } with attn := t.attn, mem := t.mem } ∧ s.attnWithin t ∧
       t.attnBit .sensorFault = true ∧ t.attn.mask = s.attn.mask ∧ (s.tablesSound → t.holdsLayout 0x200 2 0x80 t.lightLayout))) ∧
  ∀ (c i : Half) (s : State), s.als.cycle = some .reading →
    let l := s.als
    let sat := c = 65535 ∨ i = 65535
    let raw := if sat then 131071 else rawLux c.toNat i.toNat l.rejection l.gain
    let done : Als := { l with
      c := c.toNat, i := i.toNat, completion := some s.clock, fault := false, faultTimer := some ⟨s.clock, 300⟩, cycle := some .starting }
    let als : Als :=
      if sat ∧ 1 < l.gain then { done with gain := l.gain / 8, discarded := true }
      else { done with raw, gain := nextGain c.toNat i.toNat l.gain, f := smooth l.f raw l.rise l.fall, discarded := false }
    ∃ t, exec (.lightReadDone c i) s = .next t ∧
      t.still = ({ s with als, bld := { s.bld with f := if als.f = l.f then s.bld.f else als.f } } : State).still ∧ s.attnWithin t

/-- From R131, R130, R126, R134, R84: A slew tick in ACTIVE lowers the demand duty by at most the fall step toward the requested duty, cuts
the present duty to the ceiling and raises it toward the ceiling by at most the rise step, from 0 to the larger of the rise step and d_min;
outside ACTIVE none is taken. The release timer's end drops BLD's claim where BLD does not want the token, and a BACKLIGHT token goes FREE,
or to the charger that waits, which may give it up in the evaluation that follows. From R83, R84, R92: BLD's ask takes a FREE token; it
turns CHARGER to HANDOVER, the rate STANDARD at once with the FALLING settle, unless CHG gives its claim up in the evaluation that follows;
in BACKLIGHT and HANDOVER it changes nothing. BLD's release in BACKLIGHT or HANDOVER passes the token to the charger that waits, or that
holds its claim in a HANDOVER (log entry 20), with the RISING settle, and else makes it FREE; in FREE and CHARGER it changes nothing. From
R133, R134: In a derivation BLD claims and asks where it wants the token, and releases at once where it is not lit; where only the want
ends, the release timer starts. -/
def Obligations.SlewTickAndTokenRelease : Prop :=
  (∀ s : State,
    (s.active = false → exec .slewTick s = .next s) ∧
    (s.active = true →
      let b := s.bld
      let lowered := if b.requested < b.demand then max b.requested (b.demand - b.fallStep) else b.demand
      ∃ u t, exec .slewTick s = .next t ∧ t = State.commit s u ∧ t.still = s.still ∧ s.attnWithin t ∧
        u.bld.demand = (if b.mode = .off then 0 else max lowered u.bld.requested) ∧
        (let v := min b.present u.bld.ceiling
        u.bld.present =
          if v < u.bld.ceiling then min u.bld.ceiling (if v = 0 then max b.riseStep b.dMin else v + b.riseStep) else v)) ∧
    ∀ tm, s.bld.release = some tm → (s.bld.figures s.active).wants s.active = false →
      ∃ u t, exec .tokenReleaseExpiry s = .next t ∧ t = State.commit s u ∧ t.still = s.still ∧ s.attnWithin t ∧
        u.bld.claim = false ∧ u.bld.release = none ∧
        (s.budget.token = .backlight →
          (s.budget.waiting = false → u.budget.token = .free) ∧
            (s.budget.waiting = true → u.budget.waiting = false ∧ (u.budget.token = .charger ∨ u.chg.claim = false)))) ∧
  ∀ s : State,
    let ask := s.bldAsk
    let release := s.bldRelease
    let passes := s.budget.waiting = true ∨ (s.budget.token = .handover ∧ s.chg.claim = true)
    let gaveUp (t : State) : Prop := s.chg.claim = true ∧ t.chg.claim = false
    (ask.still = s.still ∧ s.attnWithin ask ∧
      (s.budget.token = .free → ask.budget.token = .backlight ∧ ask.budget.waiting = s.budget.waiting ∧ ask.chg = s.chg ∧
        Report.derive ∈ ask.reports) ∧
      (s.budget.token = .charger → ask.chg.fast = false ∧ Report.derive ∈ ask.reports ∧
        (gaveUp ask → ask.budget.token = .backlight ∧ ask.chg.settle = none) ∧
        (¬ gaveUp ask → ask.budget.token = .handover ∧ ask.chg.settle = some ⟨.falling, ⟨s.clock, 200⟩⟩)) ∧
      (s.budget.token = .backlight ∨ s.budget.token = .handover → ask = s)) ∧
    (release.still = s.still ∧ s.attnWithin release ∧
      (s.budget.token = .free ∨ s.budget.token = .charger → release = s) ∧
      (s.budget.token = .backlight ∨ s.budget.token = .handover →
        release.budget.waiting = false ∧ Report.derive ∈ release.reports ∧
        (¬ passes → release.budget.token = .free ∧ release.chg = s.chg) ∧
        (passes → gaveUp release → release.budget.token = .free ∧ release.chg.settle = none) ∧
        (passes → ¬ gaveUp release →
          release.budget.token = .charger ∧ release.chg.settle = some ⟨.rising, ⟨s.clock, 200⟩⟩))) ∧
    ∀ install : Bld → Bld,
      let b := (install s.bld).figures s.active
      let lit := s.active = true ∧ b.mode ≠ .off
      let wants := lit ∧ b.nNorm * 1023 / b.nFull < min b.requested b.thermalCap
      let t := s.derive install
      let tokenAs (u : State) : Prop := t.budget.token = u.budget.token ∧ t.budget.waiting = u.budget.waiting
      (wants → t.bld.claim = true ∧ (b.claim = true → tokenAs s ∧ t.bld.release = none) ∧ (b.claim = false → tokenAs ask)) ∧
      (¬ wants → b.claim = false → t.bld.claim = false ∧ tokenAs s) ∧
      (¬ wants → lit → b.claim = true → t.bld.claim = true ∧ tokenAs s ∧
        t.bld.release = (if b.release.isSome then b.release else some ⟨s.clock, 1000 * b.delay⟩)) ∧
      (¬ wants → ¬ lit → b.claim = true → t.bld.claim = false ∧ t.bld.release = none ∧ tokenAs release)

/-! ### Motion and park -/

/-- From R140 to R142, R153: A motion read tick begins a read. A read that completes with d = 0 is discarded; any other is accepted: axes
within ±16,000 mg, m² as the sum of the squares, missed samples grown by d − 1, the stall over, the stall timer afresh, and the detector
applied. d is 1 for the first read after power-on reset or a stall, else the difference of the sequence numbers modulo 256. Without a read
in flight nothing happens (the model's choice, log entry 10). What the detector hands on follows the page: a finished measurement goes to
ICL, which makes its record (R145, R146, R154); entry to FALLING places FREEFALL, and the end of that period removes it, before or after the
record (log entry 3); entry to FALLING, and a shock where it is asked for, ask for the park (R144, R147, R150): RELEASED becomes REQUESTED
with 20 ms, or PARKED where PARK_ACK stands; the return from SETTLE to IDLE releases the park where auto release is yes and the latch clear,
and ends a PARK operation ABORTED (R151). From R141, R148, R153: The stall timer's end forces the detector to IDLE with its runs, its
counts, the missed samples among them, its window and the last sample gone (log entry 23), sets the stall and SENSOR_FAULT, and takes
FREEFALL from the hold set. The 100 ms tick rewrites the motion page whole, each field of the table of section 13.5 at its offset, and
changes nothing else. -/
def Obligations.MotionReadsStallAndPageTick : Prop :=
  (∀ s : State,
     exec .motionReadTick s = .next { s with mot := { s.mot with reading := true } } ∧
     ∀ (seq : Byte) (x y z : Half),
       (s.mot.reading = false → exec (.motionReadDone seq x y z) s = .next s) ∧
       (s.mot.reading = true →
         let d : Nat := if s.mot.fresh then 1 else match s.mot.last with
           | some t => (seq - t.seq).toNat
           | none => 1
         let ax := clampInt (-16000) 16000 x.toInt
         let ay := clampInt (-16000) 16000 y.toInt
         let az := clampInt (-16000) 16000 z.toInt
         let sample : Sample := ⟨ax, ay, az, seq, (ax * ax + ay * ay + az * az).toNat⟩
         let ready : Motion := { s.mot with
           reading := false, last := some sample, fresh := false, stalled := false, stallTimer := some ⟨s.clock, 20⟩
           missed := min 65535 (s.mot.missed + (d - 1)) }
         (d = 0 → s.reports = [] → exec (.motionReadDone seq x y z) s = .next { s with mot := { s.mot with reading := false } }) ∧
         (d ≠ 0 →
           let r := ready.apply s.mot.last sample d
           ∃ u t : State, exec (.motionReadDone seq x y z) s = .next t ∧ t = State.commit s (u.handMotion r.2) ∧
             u = { s with mot := r.1, mem := u.mem } ∧
             (r.1.detector ≠ s.mot.detector ∨ s.mot.stalled = true → u.holdsLayout 0x280 2 0x68 u.motionLayout) ∧
             t.mot = r.1 ∧ s.attnWithin t ∧ t.clock = s.clock ∧ t.therm = s.therm ∧ t.als = s.als ∧ t.psd = s.psd))) ∧
  (∀ s : State,
     let p := s.park
     let asked : Park :=
       if p.state = .released ∧ p.ack = true then { p with state := .parked, timer := none }
       else if p.state = .released ∨ (p.state = .requested ∧ p.timer = none) then
         { p with state := .requested, timer := some ⟨s.clock, 20⟩ }
       else p
     let holds (b : Bool) : HoldSet := { s.path.holds with freefall := b }
     let removed := s.removeHold .freefall
     s.handMotion {} = s ∧
     (let t := s.handMotion { park := true }
      t = { s with park := asked, mem := t.mem }) ∧
     (let t := s.handMotion { park := true, place := true }
      t = { s with park := asked, path := t.path, attn := t.attn, mem := t.mem } ∧ s.attnWithin t ∧
        (∀ r, s.path.mode = .making → s.path.transfer = some r → t.attnBit .sourceChange = true ∧
          t.path = { s.path with holds := holds true, mode := .paused, transfer := some { r with settle := none } }) ∧
        (s.path.mode ≠ .making ∨ s.path.transfer = none → t.path = { s.path with holds := holds true })) ∧
     (removed.path.holds = holds false ∧
       ((holds false).isEmpty = false ∨ s.path.holds.isEmpty = true → removed = { s with path := { s.path with holds := holds false } }) ∧
       ((holds false).isEmpty = true → s.path.holds.isEmpty = false →
         (∀ r, s.path.mode = .paused → s.path.transfer = some r →
           removed.path = { s.path with
             holds := holds false, mode := .making, transfer := some { r with settle := some ⟨s.clock, 20⟩ } }) ∧
         (s.path.mode ≠ .paused → removed = ({ s with path := { s.path with holds := holds false } } : State).evaluate false))) ∧
     (∀ f, s.handMotion { done := some f } = s.logImpact f ∧
       ∃ u : State, u = { s with turn := u.turn } ∧
         let t := s.handMotion { remove := true, done := some f }
         t.path.holds.freefall = false ∧ (t = (u.logImpact f).removeHold .freefall ∨ t = (u.removeHold .freefall).logImpact f)) ∧
     (let t := s.handMotion { home := true }
      let free := s.mot.autoRelease = true ∧ p.latch = false ∧ p.state ≠ .released
      (¬ free → t = s) ∧
      (free → t = { s with park := { p with state := .released, timer := none }, walk := t.walk, attn := t.attn, mem := t.mem } ∧
        s.attnWithin t ∧
        ∀ slot tag, s.walk.park = .held slot tag →
          t.returned slot tag .aborted 0 s.clock ∧ t.walk = { s.walk with park := .free } ∧ t.attnBit .cardDone = true))) ∧
  ∀ s : State,
    (∀ tm, s.mot.stallTimer = some tm →
      ∃ t, exec .motionStallExpiry s = .next t ∧
        t.still = ({ s with
          mot := { s.mot with
            detector := .idle, origin := none, candRun := 0, fall := 0, pendingNormal := 0, quiet := 0, window := none, stillness := 0
            missed := 0, last := none, stalled := true, stallTimer := none, fresh := true }
          path := { s.path with holds := { s.path.holds with freefall := false } } } : State).still ∧
        s.attnWithin t ∧ t.attnBit .sensorFault = true) ∧
    ∃ t, exec .motionPageTick s = .next t ∧ t = { s with mem := t.mem } ∧ t.num 0x280 2 = (s.num 0x280 2 + 2) % 65536 ∧
      (∀ k, k < 102 → t.byte (0x282 + k) = (motionImage t).getD k 0) ∧ t.holdsLayout 0x280 2 0x68 t.motionLayout ∧ ∀ a, a < 0x280 ∨ 0x2E8 ≤ a → t.byte a = s.byte a

/-- From R142 to R145: The detector in IDLE, CANDIDATE and FALLING, by the class of the sample: low where m² < F², high where m² ≥ J². From
R146, R147: The detector in IMPACT and SETTLE. The window grows by each sample until it has lasted 32 samples; it is then handed over with
its peak, floor(sqrt(peak m²)), and a DROP ends its hold. In SETTLE the stillness run leads back to IDLE at 200, and a strike or a low
sample starts afresh. What the runs and the window hold outside the states that use them is log entry 24 (DEDUCED). That the sample before
is judged by the present impact threshold is log entry 40's choice. -/
def Obligations.DetectorFollowsItsTables : Prop :=
  (∀ (m : Motion) (last : Option Sample) (t : Sample) (d : Nat),
     let low := t.m2 < m.ffThreshold * m.ffThreshold
     let high := m.impThreshold * m.impThreshold ≤ t.m2
     let r := m.apply last t d
     let opened (kind : ImpactKind) (fall : Nat) : Window := ⟨kind, 1, t.m2, t.peakAxis, 1, 0, fall⟩
     (m.detector = .idle →
       (low → r = ({ m with detector := .candidate, origin := some .idle, candRun := 1, stillness := 0 }, {})) ∧
       (¬ low → high →
         r = ({ m with detector := .impact, stillness := 0, window := some (opened .shock 0) }, { park := m.parkOnShock })) ∧
       (¬ low → ¬ high → r = (m, {}))) ∧
     (m.detector = .candidate →
       (low → d = 1 → m.candRun + 1 < m.ffCount → m.candRun < 255 → r = ({ m with candRun := m.candRun + 1 }, {})) ∧
       (low → d = 1 → m.ffCount ≤ m.candRun + 1 →
         r = ({ m with detector := .falling, origin := none, candRun := 0, fall := m.ffCount, pendingNormal := 0, quiet := 0 },
           { park := true, place := true })) ∧
       (¬ low ∨ d ≠ 1 → m.origin = some .idle →
         r = ({ m with detector := .idle, origin := none, candRun := 0 } : Motion).apply last t d) ∧
       (¬ low ∨ d ≠ 1 → m.origin = some .settle →
         r = ({ m with detector := .settle, origin := none, candRun := 0, stillness := 0 } : Motion).apply last t d)) ∧
     (m.detector = .falling →
       (low → r = ({ m with fall := min 65535 (m.fall + m.pendingNormal + d), pendingNormal := 0, quiet := 0 }, {})) ∧
       (¬ low → high → r = ({ m with detector := .impact, window := some (opened .drop m.fall) }, {})) ∧
       (¬ low → ¬ high → m.quiet + d < 16 →
         r = ({ m with quiet := m.quiet + d, pendingNormal := min 65535 (m.pendingNormal + d) }, {})) ∧
       (¬ low → ¬ high → 16 ≤ m.quiet + d →
         r.1.detector = .settle ∧ r.1.stillness = 0 ∧ r.1.finished = some ⟨.fallNoImpact, m.fall, 0, none, 0, 0⟩ ∧
           r.2 = { remove := true, done := some ⟨.fallNoImpact, m.fall, 0, none, 0, 0⟩ }))) ∧
  ∀ (m : Motion) (last : Option Sample) (t : Sample) (d : Nat),
    let low := t.m2 < m.ffThreshold * m.ffThreshold
    let high := m.impThreshold * m.impThreshold ≤ t.m2
    let still := 640000 ≤ t.m2 ∧ t.m2 ≤ 1440000
    let r := m.apply last t d
    (∀ w, m.detector = .impact → m.window = some w →
      let w' : Window := { w with
        elapsed := w.elapsed + d
        peak2 := max w.peak2 t.m2
        axis := if w.peak2 < t.m2 then t.peakAxis else w.axis
        overs := if high then w.overs + 1 else w.overs
        rebounds := if high ∧ (∀ p, last = some p → p.m2 < m.impThreshold * m.impThreshold) then w.rebounds + 1 else w.rebounds }
      (w.elapsed + d < 32 → r = ({ m with window := some w' }, {})) ∧
      (32 ≤ w.elapsed + d → max w.peak2 t.m2 ≤ 768000000 →
        ∃ peak, peak * peak ≤ w'.peak2 ∧ w'.peak2 < (peak + 1) * (peak + 1) ∧
          let f : Finished := ⟨w.kind, w.fall, peak, some w'.axis, w'.overs, w'.rebounds⟩
          r = ({ m with detector := .settle, stillness := 0, window := none, finished := some f },
            { remove := w.kind == .drop, done := some f }))) ∧
    (m.detector = .settle →
      (still → m.stillness + d < 200 → r = ({ m with stillness := m.stillness + d }, {})) ∧
      (still → 200 ≤ m.stillness + d → r = ({ m with detector := .idle, stillness := 200 }, { home := true })) ∧
      (¬ still → high →
        r = ({ m with detector := .impact, stillness := 0, window := some ⟨.shock, 1, t.m2, t.peakAxis, 1, 0, 0⟩ },
          { park := m.parkOnShock })) ∧
      (¬ still → ¬ high → low → r = ({ m with detector := .candidate, origin := some .settle, candRun := 1, stillness := 0 }, {})) ∧
      (¬ still → ¬ high → ¬ low → r = ({ m with stillness := 0 }, {})))

/-- From R150, R152: PARK_ACK becoming asserted takes a REQUESTED park to PARKED and ends a PARK operation OK; becoming deasserted it takes
a PARKED park to REQUESTED with the timer at 20 ms; otherwise it is only noted, and a level that has not changed does nothing (the model's
choice, log entry 1). The acknowledge timer's end in REQUESTED raises PARK_TIMEOUT and ends a PARK operation TIMEOUT, the park staying
REQUESTED; in any other state, and where no timer runs, it does nothing (the model's choice, log entry 10). -/
def Obligations.ParkAcknowledgeAndItsTimer : Prop :=
  ∀ s : State,
    let p := s.park
    (∀ a, p.ack = a → exec (.parkAckChange a) s = .next s) ∧
    (∀ a, p.ack ≠ a →
      ∃ t, exec (.parkAckChange a) s = .next t ∧ t = { s with park := t.park, walk := t.walk, attn := t.attn, mem := t.mem } ∧
        t.park = (match p.state, a with
          | .requested, true => { p with ack := true, state := .parked, timer := none }
          | .parked, false => { p with ack := false, state := .requested, timer := some ⟨s.clock, 20⟩ }
          | _, _ => { p with ack := a }) ∧
        s.attnWithin t ∧ t.attn.mask = s.attn.mask ∧
        (∀ slot tag, p.state = .requested → a = true → s.walk.park = .held slot tag →
          t.returned slot tag .ok 0 s.clock ∧ t.walk = { s.walk with park := .free } ∧ t.attnBit .cardDone = true) ∧
        (p.state ≠ .requested ∨ a = false → t.walk = s.walk)) ∧
    (p.state ≠ .requested ∨ p.timer = none → exec .ackTimerExpiry s = .next s) ∧
    ∀ tm, p.state = .requested → p.timer = some tm →
      ∃ t, exec .ackTimerExpiry s = .next t ∧
        t = { s with park := { p with timer := none }, walk := t.walk, attn := t.attn, mem := t.mem } ∧
        s.attnWithin t ∧ t.attnBit .parkTimeout = true ∧
        ∀ slot tag, s.walk.park = .held slot tag →
          t.returned slot tag .timeout 0 s.clock ∧ t.walk = { s.walk with park := .free } ∧ t.attnBit .cardDone = true

/-! ### The host link -/

/-- From R166, R169: A memory read returns the bytes from the address on, wrapping at 8,192; a register read the register's two bytes, low
byte first, then zeros; an unknown command zeros. A register write that is not of one of the four registers, or whose second byte is not
complete, does nothing; nor does a transfer that ends before its address is complete. Nothing else changes. From R169, R178: A write to ATTN
clears each bit written 1, but not a level bit whose condition holds; a write to MASK replaces the fifteen mask bits. ATTN# is asserted
while ATTN AND MASK is nonzero. What the model's record of the returned bytes holds, the empty list after a transfer that returns none among
it, is log entry 33's choice. -/
def Obligations.LinkReadsAndAttentionWrites : Prop :=
  (∀ s : State,
     let word : Nat → Half := fun a =>
       if a = 0 then s.attn.bits.setWidth 16 else if a = 1 then s.attn.mask.setWidth 16
       else if a = 2 then BitVec.ofNat 16 (s.walk.run.toNat + 256 * s.walk.recheck) else 0
     (∀ (a : Half) (n : Nat), exec (.memoryRead (some a) n) s =
       .next { s with miso := (List.range n).map (fun k => s.byte ((a.toNat + k) % 8192)) }) ∧
     (∀ n, exec (.memoryRead none n) s = .next { s with miso := [] }) ∧
     (∀ (a : Half) (n : Nat), exec (.registerRead (some a) n) s =
       .next { s with miso := (List.range n).map (fun k =>
         if k = 0 then (word a.toNat).setWidth 8 else if k = 1 then (word a.toNat >>> 8).setWidth 8 else 0) }) ∧
     (∀ n, exec (.registerRead none n) s = .next { s with miso := [] }) ∧
     (∀ cmd n, exec (.unknownCommand cmd n) s = .next { s with miso := List.replicate n 0 }) ∧
     ∀ a data v, s.reports = [] → wellFormed (.registerWrite a data v) = true →
       exec (.registerWrite a data v) s = .next { s with miso := [] }) ∧
  ∀ (v : Half) (s : State),
    (∃ t, exec (.attnWrite v) s = .next t ∧ t = { s with miso := [], attn := t.attn } ∧ t.attn.mask = s.attn.mask ∧
      ∀ b : AttnBit, t.attnBit b = (s.attnBit b && (!v.getLsbD b.index || s.condition b))) ∧
    exec (.maskWrite v) s = .next { s with miso := [], attn := { s.attn with mask := v.setWidth 15 } } ∧
    (s.attnLine = true ↔ ∃ b : AttnBit, s.attnBit b = true ∧ s.attn.mask.getLsbD b.index = true)

/-- From R166, R167: A memory write stores each whole byte, from the address on and wrapping at 8,192, where its region lets the host write
(the read count at 0x43, the card slots, the host area), and leaves every other byte as it was. -/
def Obligations.HostWritesReachTheirRegionsOnly : Prop :=
  ∀ (s : State),
    let open_ (a : Nat) : Prop := a = 0x43 ∨ (0x800 ≤ a ∧ a < 0x1000) ∨ (0x1200 ≤ a ∧ a < 0x2000)
    (∀ (a : Half) (data : List Byte), data.length ≤ 8192 →
      ∃ t, exec (.memoryWrite (some a) data) s = .next t ∧ t = { s with mem := t.mem, miso := [] } ∧
        (∀ k, k < data.length → open_ ((a.toNat + k) % 8192) → t.byte ((a.toNat + k) % 8192) = data.getD k 0) ∧
        ∀ c, (¬ open_ c ∨ ∀ k, k < data.length → c ≠ (a.toNat + k) % 8192) → t.byte c = s.byte c) ∧
    ∀ data, exec (.memoryWrite none data) s = .next { s with miso := [] }

/-- From R170, R172, R173: A CONTROL write with SOFT_RESET clear, by either of its rows, installs RUN and RECHECK (at most 100) and moves
the walker as the table gives where it takes no card; a nudge of a walker that is not WAITING, or whose slot is not takeable, does nothing;
a recheck that finds the slot not takeable restarts the timer. That every write with RUN set restarts the recheck timer of a WAITING walker
is log entry 34 (DEDUCED), that an expiry without a timer does nothing log entry 10's choice. -/
def Obligations.ControlWritesMoveTheWalker : Prop :=
  ∀ (s : State) (v : Half) (sup : Supply), s.reports = [] →
    let run := v.getLsbD 0
    let n := min 100 (v.toNat / 256)
    let timer (k : Nat) : Option Timer := if k = 0 then none else some ⟨s.clock, 10 * k⟩
    let w := s.walk
    (∀ i, i = .controlRun v sup ∨ i = .controlRecheck v sup → v.getLsbD 1 = false →
      ¬ (w.state = .stopped ∧ run = true ∧ s.takeable w.index = true) →
      ∃ t, exec i s = .next t ∧
        t = { s with
          miso := []
          walk := (match w.state, run with
            | .stopped, false => { w with run, recheck := n }
            | .stopped, true => { w with run, recheck := n, state := .waiting, taken := false, recheckTimer := timer n }
            | .running, true => { w with run, recheck := n }
            | .running, false => { w with run, recheck := n, state := .stopped }
            | .waiting, true => { w with run, recheck := n, recheckTimer := timer n }
            | .waiting, false => { w with run, recheck := n, state := .stopped, recheckTimer := none })
          attn := t.attn
          mem := t.mem } ∧
        t.attn.mask = s.attn.mask ∧
        (∀ b, t.attnBit b = (s.attnBit b || (b == .listIdle && w.state == .stopped && run && w.taken))) ∧
        (t.walk.state ≠ w.state → (t.byte 0x40).toNat = t.walk.state.code ∧ (t.byte 0x41).toNat = t.walk.index.toNat) ∧
        ∀ a, a ≠ 0x40 → a ≠ 0x41 → t.byte a = s.byte a) ∧
    (w.state ≠ .waiting ∨ s.takeable w.index = false → exec (.nudge v sup) s = .next { s with miso := [] }) ∧
    (∀ tm, w.state = .waiting → w.recheckTimer = some tm → s.takeable w.index = false →
      exec (.recheckExpiry sup) s = .next { s with walk := { w with recheckTimer := timer w.recheck } }) ∧
    (w.state ≠ .waiting ∨ w.recheckTimer = none → exec (.recheckExpiry sup) s = .next s)

/-- From R172, R173: A nudge and the recheck timer's end in WAITING, and RUN in STOPPED, take a takeable card as the card's own row does in
a walker that RUNS at that slot: all of the card's effect follows. That each command takes one card, exactly as the card's row does, is the
model's choice (log entry 11). That a recheck timer is discarded on the way into RUNNING is log entry 45 (DEDUCED), and that the record of
the returned bytes is empty after a register write log entry 33's choice. -/
def Obligations.WakingTheWalkerTakesTheCard : Prop :=
  ∀ (i : Instr) (s s0 : State) (v : Half) (sup : Supply), s.takeable s.walk.index = true →
    (i = .nudge v sup ∧ s.walk.state = .waiting ∧ s0 = { s with miso := [] }) ∨
      (i = .recheckExpiry sup ∧ s.walk.state = .waiting ∧ s.walk.recheckTimer.isSome = true ∧ s0 = s) ∨
      ((i = .controlRun v sup ∨ i = .controlRecheck v sup) ∧ s.walk.state = .stopped ∧ v.getLsbD 0 = true ∧ v.getLsbD 1 = false ∧
        s0 = { s with miso := [], walk := { s.walk with run := true, recheck := min 100 (v.toNat / 256) } }) →
    ∃ t, exec i s = .next t ∧
      exec (cardCommand (s.cardKind s.walk.index) sup)
        (({ s0 with walk := { s0.walk with state := .running, recheckTimer := none } } : State).writeWalker) = .next t

/-- From section 13.3, R166, R169: The decoder reads from a link transfer the command that the encoder writes: every well-formed link
command but CONTROL_RECHECK, which is the same transfer as CONTROL_RUN and has the same effect (log entry 27). -/
def Obligations.LinkTransfersDecodeAsEncoded : Prop :=
  (∀ (i : Instr) (bytes : LinkBytes) (sup : Supply), wellFormed i = true → encodeTransfer i = some bytes →
    (∀ v u, i ≠ .controlRecheck v u) →
    (∀ a d u, i = .registerWrite a d u → u = sup) → (∀ v u, i = .controlRun v u → u = sup) → (∀ v u, i = .nudge v u → u = sup) →
    decodeTransfer bytes sup = some i) ∧
  ∀ (v : Half) (sup : Supply) (s : State), exec (.controlRecheck v sup) s = exec (.controlRun v sup) s

/-! ### The cards: each is taken by a RUNNING walker whose slot is takeable and carries a card of the kind -/

/-- From R121, R174: SET_PANEL: each figure is installed at the nearer end of its range, N_norm at most N_full. The result is CLAMPED where
one was adjusted; the fields show what was installed. From R119, R134, R174: SET_LIGHT: rejection up to 255, the two weights within 1 to 16
and the token release delay within 5 to 300 s are installed; the result carries the gain, the fault, the raw lux and F as they stood. -/
def Obligations.SetPanelAndSetLightInstallSettings : Prop :=
  (∀ s : State, s.ready (some .setPanel) →
     let n := s.walk.index
     let p := clampNat 1000 30000 (s.param n 0x08 2)
     let full := clampNat 100 2000 (s.param n 0x0A 2)
     let norm := min (s.param n 0x0C 2) full
     let dMin := clampNat 1 255 (s.param n 0x0E 2)
     let rise := clampNat 1 255 (s.param n 0x10 2)
     let fall := clampNat 1 255 (s.param n 0x12 2)
     ∃ t, exec .setPanel s = .next t ∧
       t.still = ({ s with
         bld := { s.bld with power := p, nFull := full, nNorm := norm, dMin, riseStep := rise, fallStep := fall }
         walk := t.walk } : State).still ∧
       s.cardDone t
         (resultFor (p == s.param n 0x08 2 && full == s.param n 0x0A 2 && norm == s.param n 0x0C 2 && dMin == s.param n 0x0E 2 &&
           rise == s.param n 0x10 2 && fall == s.param n 0x12 2)) 0
         [(0x08, u16 p), (0x0A, u16 full), (0x0C, u16 norm), (0x0E, u16 dMin), (0x10, u16 rise), (0x12, u16 fall),
           (0x14, u16 (norm * 1023 / full))] ∧
       s.attnWithin t) ∧
  ∀ s : State, s.ready (some .setLight) →
    let n := s.walk.index
    let rejection := min (s.param n 0x08 2) 255
    let rise := clampNat 1 16 (s.param n 0x0A 1)
    let fall := clampNat 1 16 (s.param n 0x0B 1)
    let delay := clampNat 5 300 (s.param n 0x0C 2)
    ∃ t, exec .setLight s = .next t ∧
      t.still = ({ s with
        als := { s.als with rejection, rise, fall }, bld := { s.bld with delay }, walk := t.walk } : State).still ∧
      s.cardDone t
        (resultFor (rejection == s.param n 0x08 2 && rise == s.param n 0x0A 1 && fall == s.param n 0x0B 1 && delay == s.param n 0x0C 2)) 0
        [(0x08, u16 rejection), (0x0A, u8 rise), (0x0B, u8 fall), (0x0C, u16 delay), (0x0E, u8 s.als.gain), (0x0F, yesNo s.als.fault),
          (0x10, u32 s.als.raw), (0x14, u32 s.als.f)] ∧
      s.attnWithin t

/-- From R123, R124, R174: SET_CURVE: 2 to 12 points, with even lux up to 131,070 strictly rising and at most 2,000 nits each, replace the
curve, the detail their count; otherwise nothing is installed and the result is BAD_PARAM, detail 0xFF for the count, else a point's index.
SET_BRIGHTNESS: mode, manual nits up to 2,000 and offset within ±500 are installed; a mode code that names none is BAD_PARAM. From R122,
R125, R126, R128 to R130, R185: The result of SET_BRIGHTNESS carries the target nits, the requested duty (0 outside ACTIVE), the ceiling,
the present duty and the grant as the card's derivation leaves them. That the requested duty is 0 in a derivation outside ACTIVE is log
entry 39 (DEDUCED). -/
def Obligations.SetCurveAndSetBrightness : Prop :=
  ∀ s : State,
    let n := s.walk.index
    (s.ready (some .setCurve) →
      let count := s.param n 0x08 1
      let points := (List.range count).map (fun i =>
        (⟨s.param n (0x0C + 4 * i) 4 % 262144, s.param n (0x0C + 4 * i) 4 / 262144⟩ : CurvePoint))
      let fine (c : List CurvePoint) : Prop :=
        c.Pairwise (fun p q => p.lux < q.lux) ∧ ∀ p ∈ c, p.lux % 2 = 0 ∧ p.lux ≤ 131070 ∧ p.nits ≤ 2000
      ∃ t, exec .setCurve s = .next t ∧ s.attnWithin t ∧
        (count < 2 ∨ 12 < count → t.still = ({ s with walk := t.walk } : State).still ∧ s.cardDone t .badParam 0xFF []) ∧
        (2 ≤ count → count ≤ 12 →
          (fine points → t.still = ({ s with bld := { s.bld with curve := points }, walk := t.walk } : State).still ∧
            s.cardDone t .ok count []) ∧
          (¬ fine points → ∃ i, i < count ∧ fine (points.take i) ∧ ¬ fine (points.take (i + 1)) ∧
            t.still = ({ s with walk := t.walk } : State).still ∧ s.cardDone t .badParam i []))) ∧
    (s.ready (some .setBrightness) →
      let code := s.param n 0x08 1
      let manual := min (s.param n 0x0A 2) 2000
      let offset := clampInt (-500) 500 (s.paramSigned n 0x0C)
      let b : Bld := { s.bld with mode := if code = 1 then .auto else if code = 2 then .manual else .off, manual, offset }
      let lit := s.active = true ∧ b.mode ≠ .off
      let target := b.targetNits (if b.mode = .auto then curveAt b.curve b.f else b.curveNits)
      let requested := if lit then max b.dMin (target * 1023 / b.nFull) else 0
      let demand := if lit then max b.demand requested else 0
      let boostCap := if b.token = .backlight then 1023 else b.nNorm * 1023 / b.nFull
      let budgetCap := if b.lastState = .granted then b.lastGrant * 1023 / b.power else 0
      let ceiling := min (min demand (min (1023 * b.factor / 100) boostCap)) budgetCap
      ∃ t, exec .setBrightness s = .next t ∧ s.attnWithin t ∧
        (code < 1 ∨ 3 < code → t.still = ({ s with walk := t.walk } : State).still ∧ s.cardDone t .badParam 0 []) ∧
        (1 ≤ code → code ≤ 3 →
          t.still = ({ s with
            bld := { s.bld with mode := if code = 1 then .auto else if code = 2 then .manual else .off, manual, offset }
            walk := t.walk } : State).still ∧
          s.cardDone t (resultFor (manual == s.param n 0x0A 2 && offset == s.paramSigned n 0x0C)) 0
            [(0x08, u8 code), (0x0A, u16 manual), (0x0C, i16 offset), (0x0E, u16 target), (0x10, u16 requested), (0x12, u16 ceiling),
              (0x14, u16 (min b.present ceiling)), (0x18, u32 b.lastGrant)]))

/-- From R71, R67, R174: SET_LOAD: an index outside 4 to 11 is BAD_PARAM; else the entry's priority up to 6, its request up to 60,000 and
its floor up to the request are installed, and the result carries the grant and the state of the entry after the recompute. SET_BASE_LOAD:
the base load up to 200,000 is installed, and the result carries the headroom that the recompute gave. From R12, R59, R66, R174:
SET_POWER_POLICY: discharge mode, reserve up to 50, margin up to 30, release window within 5 to 60 s, swap margin up to 20,000 and an
adapter override of 0 or within 10,000 to 200,000 are installed; a mode code that names none is BAD_PARAM. Then BUDGET recomputes, with a
recheck where a bay is PREPARING (R80), and PATH evaluates for the policy, in one order or the other (log entry 3). -/
def Obligations.SetLoadBaseLoadAndPowerPolicy : Prop :=
  (∀ s : State,
     let n := s.walk.index
     (s.ready (some .setLoad) →
       let k := s.param n 0x08 1
       let priority := min (s.param n 0x09 1) 6
       let request := min (s.param n 0x0C 4) 60000
       let floor := min (s.param n 0x10 4) request
       let after := ((s.modEntry k (fun e => { e with priority, request, floor })).recompute false).budget.entry k
       ∃ t, exec .setLoad s = .next t ∧ t.still = ({ s with walk := t.walk } : State).still ∧ s.attnWithin t ∧
         (k < 4 ∨ 11 < k → s.cardDone t .badParam 0 []) ∧
         (4 ≤ k → k ≤ 11 →
           (t.budget.entry k).priority = priority ∧ (t.budget.entry k).request = request ∧ (t.budget.entry k).floor = floor ∧
           (∀ j, 4 ≤ j → j ≠ k → (t.budget.entry j).priority = (s.budget.entry j).priority ∧
             (t.budget.entry j).request = (s.budget.entry j).request ∧ (t.budget.entry j).floor = (s.budget.entry j).floor) ∧
           s.cardDone t (resultFor (priority == s.param n 0x09 1 && request == s.param n 0x0C 4 && floor == s.param n 0x10 4)) 0
             [(0x08, u8 k), (0x09, u8 priority), (0x0C, u32 request), (0x10, u32 floor), (0x14, u32 after.grant),
               (0x18, u8 (codeIn [.inactive, .granted, .shed] after.state))])) ∧
     (s.ready (some .setBaseLoad) →
       let base := min (s.param n 0x08 4) 200000
       ∃ t, exec .setBaseLoad s = .next t ∧
         t.still = ({ s with budget := { s.budget with base }, walk := t.walk } : State).still ∧
         s.cardDone t (resultFor (base == s.param n 0x08 4)) 0
           [(0x08, u32 base), (0x0C, u32 (({ s with budget := { s.budget with base } } : State).recompute false).budget.headroom)] ∧
         s.attnWithin t)) ∧
  (∀ s : State, ∃ u : State, u = { s with turn := u.turn } ∧
    (s.policyTaken = (u.recompute true).evaluate true ∨ s.policyTaken = (u.evaluate true).settle.recompute true)) ∧
  ∀ s : State, s.ready (some .setPowerPolicy) →
    let n := s.walk.index
    let code := s.param n 0x08 1
    let reserve := min (s.param n 0x09 1) 50
    let margin := min (s.param n 0x0A 1) 30
    let window := clampNat 5 60 (s.param n 0x0B 1)
    let swapMargin := min (s.param n 0x0C 2) 20000
    let override := if s.param n 0x10 4 = 0 then 0 else clampNat 10000 200000 (s.param n 0x10 4)
    ∃ t, exec .setPowerPolicy s = .next t ∧ s.attnWithin t ∧
      (code ≠ 1 → code ≠ 2 → t.still = ({ s with walk := t.walk } : State).still ∧ s.cardDone t .badParam 0 []) ∧
      (code = 1 ∨ code = 2 →
        t.still = ({ s with
          path := { s.path with discharge := if code = 1 then .parallel else .sequential, reserve }
          budget := { s.budget with margin, swapMargin }
          bayc := { s.bayc with window }
          smon := { s.smon with override }
          walk := t.walk } : State).still ∧
        (let set : State := { s with
          path := { s.path with discharge := if code = 1 then .parallel else .sequential, reserve }
          budget := { s.budget with margin, swapMargin }
          bayc := { s.bayc with window }
          smon := { s.smon with override }
          walk := { s.walk with taken := true } }
        ∃ u : State, t = State.commit s u ∧ u.reports = set.policyTaken.settle.reports ∧ u.budget = set.policyTaken.settle.budget ∧
          u.path = set.policyTaken.settle.path ∧ u.smon = set.policyTaken.settle.smon ∧ u.bayc = set.policyTaken.settle.bayc ∧
          u.chg = set.policyTaken.settle.chg ∧ u.bld = set.policyTaken.settle.bld) ∧
        s.cardDone t
          (resultFor (reserve == s.param n 0x09 1 && margin == s.param n 0x0A 1 && window == s.param n 0x0B 1 &&
            swapMargin == s.param n 0x0C 2 && override == s.param n 0x10 4)) 0
          [(0x08, u8 code), (0x09, u8 reserve), (0x0A, u8 margin), (0x0B, u8 window), (0x0C, u16 swapMargin), (0x10, u32 override)])

/-- From R3, R4, R86, R174: SET_SOURCE_TRIP: the source's trip range and its code up to 31 are installed, and its comparator reads ABOVE
where the voltage lies above 8,000 + 400 × code (HIGH) or 5,000 + 150 × code (LOW), BELOW where it lies below; the other sources'
comparators stay. SET_CHARGE: the two flags, the standard rate within 5,000 to 60,000 and the fast rate within the standard rate to 90,000
are installed, and the result carries the charger state, the charging bay and the commanded power after the evaluation (R87 to R91): a
charging bay is a candidate; CHARGING asks for floor(rate × held charge factor / 100) and drives the lower of request and grant, and neither
is below 5,000 mW; in any other state nothing is driven. A code that names no source or range, or no yes or no, is BAD_PARAM. From R87, R88:
A pack is a candidate by the nine conditions of R87; an evaluation keeps the charging bay while its pack is a candidate, and else takes the
candidate with the lower charge, equal charges to A, or none. -/
def Obligations.SetSourceTripAndSetCharge : Prop :=
  (∀ (s : State) (x : Bay),
    let charge (y : Bay) : Nat := numOf Snapshot.charge (s.pack y).snapshot
    let y := otherBay x
    (s.candidate x = true ↔
      s.feeding.inlet = true ∧ s.chg.enabled = true ∧ (s.bay x).state = .seated ∧ (s.source (packSource x)).closed = false ∧
        s.chg.barred ≠ some x ∧ ((s.pack x).link = .online ∨ (s.pack x).link = .degraded) ∧ (s.pack x).suspect = false ∧
        (∃ t, (s.pack x).snapshot = some t ∧ t.alarms.full = false ∧ t.alarms.terminateCharge = false ∧ t.charge < 100) ∧
        (s.therm.zone (bayZone x)).level = 0) ∧
    (s.chg.bay = some x → s.candidate x = true → s.chooseBay = some x) ∧
    ((∀ z, s.chg.bay = some z → s.candidate z = false) →
      (s.chooseBay = some x ↔ s.candidate x = true ∧
        (s.candidate y = true → charge x < charge y ∨ (charge x = charge y ∧ x = .a)))) ∧
    s.chgEvaluate.chg.bay = s.chooseBay) ∧
  ∀ (v : Supply) (s : State),
    let n := s.walk.index
    (s.ready (some .setSourceTrip) →
      let code := min (s.param n 0x0A 1) 31
      ∃ t, exec (.setSourceTrip v) s = .next t ∧ s.attnWithin t ∧
        (Source.ofCode (s.param n 0x08 1) = none ∨ twoOfCode (s.param n 0x09 1) = none →
          t.still = ({ s with walk := t.walk } : State).still ∧ s.cardDone t .badParam 0 []) ∧
        ∀ x high, Source.ofCode (s.param n 0x08 1) = some x → twoOfCode (s.param n 0x09 1) = some high →
          let threshold := if high then 8000 + 400 * code else 5000 + 150 * code
          t.still = ({ s with smon := t.smon, walk := t.walk } : State).still ∧
          (t.source x).tripHigh = high ∧ (t.source x).tripCode = code ∧
          (threshold < Sys2Proof.Machine.Supply.get v x → (t.source x).above = true) ∧
          (Sys2Proof.Machine.Supply.get v x < threshold → (t.source x).above = false) ∧
          (∀ y, y ≠ x → (t.source y).packStill = (s.source y).packStill) ∧ t.smon.override = s.smon.override ∧
          ((t.source x).above ≠ (s.source x).above → t.attnBit .sourceChange = true) ∧
          s.cardDone t (resultFor (code == s.param n 0x0A 1)) 0
            [(0x08, u8 (s.param n 0x08 1)), (0x09, u8 (s.param n 0x09 1)), (0x0A, u8 code)]) ∧
    (s.ready (some .setCharge) →
      let std := clampNat 5000 60000 (s.param n 0x0C 4)
      let fast := clampNat std 90000 (s.param n 0x10 4)
      let set : State := { s with chg := { s.chg with
        enabled := s.param n 0x08 1 == 1, fastAllowed := s.param n 0x09 1 == 1, stdRate := std, fastRate := fast } }
      let c := set.chgEvaluate.chg
      ∃ t, exec .setCharge s = .next t ∧ s.attnWithin t ∧
        (1 < s.param n 0x08 1 ∨ 1 < s.param n 0x09 1 → t.still = ({ s with walk := t.walk } : State).still ∧ s.cardDone t .badParam 0 []) ∧
        (s.param n 0x08 1 ≤ 1 → s.param n 0x09 1 ≤ 1 →
          t.still = ({ s with
            chg := { s.chg with
              enabled := s.param n 0x08 1 == 1, fastAllowed := s.param n 0x09 1 == 1, stdRate := std, fastRate := fast }
            walk := t.walk } : State).still ∧
          s.cardDone t (resultFor (std == s.param n 0x0C 4 && fast == s.param n 0x10 4)) 0
            [(0x08, u8 (s.param n 0x08 1)), (0x09, u8 (s.param n 0x09 1)), (0x0C, u32 std), (0x10, u32 fast),
              (0x14, u8 (codeIn [.idle, .charging, .paused] c.state)), (0x15, u8 (codeOf [.a, .b] c.bay)), (0x18, u32 c.set)] ∧
          (∀ x, c.bay = some x → set.candidate x = true) ∧
          (c.bay = none ↔ set.candidate .a = false ∧ set.candidate .b = false) ∧ (c.bay = none ↔ c.state = .idle) ∧
          (c.state = .charging → c.set = min c.request c.lastGrant ∧ 5000 ≤ c.request ∧ 5000 ≤ c.lastGrant ∧
            c.request = (if c.fast then fast else std) * s.chg.factor / 100) ∧
          (c.state ≠ .charging → c.set = 0 ∧ c.en = false)))

/-- From R104, R101, R174: SET_THERMAL: the three trips within −400 to 1,250 and the hysteresis up to 100 are installed for the zone, whose
level is updated from its temperature unless it has none, is in fault or is forced. A value that names no zone, or trips that are not
strictly increasing after their adjustment, is BAD_PARAM and installs nothing. A level that moves gives BLD and CHG the factors that it
changes (R102). -/
def Obligations.SetThermalInstallsAZone : Prop :=
  ∀ s : State, s.ready (some .setThermal) →
    let n := s.walk.index
    let code := s.param n 0x08 1
    let t1 := clampInt (-400) 1250 (s.paramSigned n 0x0A)
    let t2 := clampInt (-400) 1250 (s.paramSigned n 0x0C)
    let t3 := clampInt (-400) 1250 (s.paramSigned n 0x0E)
    let hyst := min (s.param n 0x10 2) 100
    let asGiven := t1 == s.paramSigned n 0x0A && t2 == s.paramSigned n 0x0C && t3 == s.paramSigned n 0x0E && hyst == s.param n 0x10 2
    ∃ t, exec .setThermal s = .next t ∧ s.attnWithin t ∧
      (code < 1 ∨ 5 < code ∨ ¬ (t1 < t2 ∧ t2 < t3) → t.still = ({ s with walk := t.walk } : State).still ∧ s.cardDone t .badParam 0 []) ∧
      ∀ z, ZoneName.ofCode code = some z → t1 < t2 → t2 < t3 →
        let set : Zone := { s.therm.zone z with t1, t2, t3, hyst }
        let new : Zone :=
          match set.fault || set.forced, set.temp with
          | false, some v => { set with level := set.nextLevel v }
          | _, _ => set
        t.therm = s.therm.setZone z new ∧
        t.still = ({ s with
          therm := t.therm
          bld := { s.bld with factor :=
            if (z = .panel ∨ z = .enclosure) ∧ new.level ≠ set.level then t.therm.backlightFactor else s.bld.factor }
          chg := { s.chg with factor :=
            if (z = .charger ∨ z = .enclosure) ∧ new.level ≠ set.level then t.therm.chargeFactor else s.chg.factor }
          walk := t.walk } : State).still ∧
        (new.level ≠ set.level → t.attnBit .thermalChange = true) ∧
        s.cardDone t (resultFor asGiven) 0
          [(0x08, u8 code), (0x0A, i16 t1), (0x0C, i16 t2), (0x0E, i16 t3), (0x10, u16 hyst), (0x12, u8 new.level),
            (0x13, u8 (new.temp.isSome.toNat + 2 * new.fault.toNat)), (0x14, i16 (new.temp.getD 0))]

/-- From R149, R160, R174: SET_MOTION: free-fall threshold within 100 to 800, count within 16 to 255, impact threshold within 1,250 to
15,000 and the two flags are installed. SET_CLASSIFIER: the rule of the index is replaced, its severity at most 3. A flag that is no yes or
no, an index above 3 or a code that names no field is BAD_PARAM. -/
def Obligations.SetMotionAndSetClassifier : Prop :=
  ∀ s : State,
    let n := s.walk.index
    (s.ready (some .setMotion) →
      let ff := clampNat 100 800 (s.param n 0x08 2)
      let count := clampNat 16 255 (s.param n 0x0A 2)
      let imp := clampNat 1250 15000 (s.param n 0x0C 2)
      ∃ t, exec .setMotion s = .next t ∧ s.attnWithin t ∧
        (1 < s.param n 0x0E 1 ∨ 1 < s.param n 0x0F 1 → t.still = ({ s with walk := t.walk } : State).still ∧ s.cardDone t .badParam 0 []) ∧
        (s.param n 0x0E 1 ≤ 1 → s.param n 0x0F 1 ≤ 1 →
          t.still = ({ s with
            mot := { s.mot with
              ffThreshold := ff, ffCount := count, impThreshold := imp, parkOnShock := s.param n 0x0E 1 == 1
              autoRelease := s.param n 0x0F 1 == 1 }
            walk := t.walk } : State).still ∧
          s.cardDone t (resultFor (ff == s.param n 0x08 2 && count == s.param n 0x0A 2 && imp == s.param n 0x0C 2)) 0
            [(0x08, u16 ff), (0x0A, u16 count), (0x0C, u16 imp), (0x0E, u8 (s.param n 0x0E 1)), (0x0F, u8 (s.param n 0x0F 1)),
              (0x10, u8 s.mot.detector.code)])) ∧
    (s.ready (some .setClassifier) →
      let k := s.param n 0x08 1
      let severity := min (s.param n 0x0D 1) 3
      ∃ t, exec .setClassifier s = .next t ∧ s.attnWithin t ∧
        (3 < k ∨ 1 < s.param n 0x09 1 ∨ ClassField.ofCode (s.param n 0x0A 1) = none ∨ 1 < s.param n 0x0B 1 ∨ 1 < s.param n 0x0C 1 →
          t.still = ({ s with walk := t.walk } : State).still ∧ s.cardDone t .badParam 0 []) ∧
        ∀ field, k ≤ 3 → s.param n 0x09 1 ≤ 1 → ClassField.ofCode (s.param n 0x0A 1) = some field → s.param n 0x0B 1 ≤ 1 →
          s.param n 0x0C 1 ≤ 1 →
          let r : ClassRule :=
            ⟨s.param n 0x09 1 == 1, field, s.param n 0x0E 2, s.param n 0x0B 1 == 1, s.param n 0x0C 1 == 1, severity⟩
          t.still = ({ s with
            icl :=
              if k = 0 then { s.icl with rule0 := r } else if k = 1 then { s.icl with rule1 := r }
              else if k = 2 then { s.icl with rule2 := r } else { s.icl with rule3 := r }
            walk := t.walk } : State).still ∧
          s.cardDone t (resultFor (severity == s.param n 0x0D 1)) 0
            [(0x08, u8 k), (0x09, u8 (s.param n 0x09 1)), (0x0A, u8 (s.param n 0x0A 1)), (0x0B, u8 (s.param n 0x0B 1)),
              (0x0C, u8 (s.param n 0x0C 1)), (0x0D, u8 severity), (0x0E, u16 (s.param n 0x0E 2))])

/-- From R177, R17, R31, R174: SET_HOLD places or removes the SOFTWARE hold: placed in MAKING it turns the path to PAUSED with the settle
discarded, and removed as the last hold in PAUSED it turns the path to MAKING with a fresh 20 ms settle; the result carries the hold set and
the path state after the card. SET_GAUGE: the poll interval within 250 to 10,000 ms and the retry limit up to 7 are installed; a running
interval is measured from its start, and a poll begins where that much has passed. -/
def Obligations.SetHoldAndSetGauge : Prop :=
  ∀ s : State, s.reports = [] →
    let n := s.walk.index
    (s.ready (some .setHold) →
      let ask := s.param n 0x08 1
      let after := if ask = 1 then s.placeHold .software else s.removeHold .software
      ∃ t, exec .setHold s = .next t ∧ s.attnWithin t ∧
        (1 < ask → t.still = ({ s with walk := t.walk } : State).still ∧ s.cardDone t .badParam 0 []) ∧
        (ask ≤ 1 →
          t.still = ({ s with
            path := { s.path with holds := { s.path.holds with software := ask == 1 } }, walk := t.walk } : State).still ∧
          s.cardDone t .ok 0
            [(0x09, u8 (setBits s.path.holds.freefall s.path.holds.postImpact (ask == 1) false)),
              (0x0A, u8 (codeIn [.steady, .making, .paused, .brownout] after.path.mode))] ∧
          (ask = 1 → after.path.mode = (if s.path.mode = .making ∧ s.path.transfer.isSome = true then .paused else s.path.mode)) ∧
          (∀ r, ask = 1 → s.path.mode = .making → s.path.transfer = some r →
            t.path.mode = .paused ∧ t.path.transfer = some { r with settle := none } ∧ t.feeding = s.feeding) ∧
          (∀ r, ask = 0 → s.path.mode = .paused → s.path.transfer = some r → s.path.holds = ⟨false, false, true⟩ →
            t.path.mode = .making ∧ t.path.transfer = some { r with settle := some ⟨s.clock, 20⟩ } ∧ t.feeding = s.feeding))) ∧
    (s.ready (some .setGauge) →
      let interval := clampNat 250 10000 (s.param n 0x08 2)
      let limit := min (s.param n 0x0A 1) 7
      ∃ t, exec .setGauge s = .next t ∧ s.attnWithin t ∧
        t.still = ({ s with glu := { s.glu with pollInterval := interval, retryLimit := limit }, walk := t.walk } : State).still ∧
        s.cardDone t (resultFor (interval == s.param n 0x08 2 && limit == s.param n 0x0A 1)) 0 [(0x08, u16 interval), (0x0A, u8 limit)] ∧
        ∀ x, ((s.pack x).interval = none → t.pack x = s.pack x) ∧
          ∀ tm, (s.pack x).interval = some tm →
            ((s.clock - tm.start).toNat < interval → t.pack x = { s.pack x with interval := some ⟨tm.start, interval⟩ }) ∧
            (interval ≤ (s.clock - tm.start).toNat → t.pack x = { s.pack x with
              op := some ⟨if (s.pack x).suspect then .reident else .poll, [], 0, false⟩, interval := none, forcedPending := false }))

/-- From R63, R175, R50: RELEASE_BAY: a bay code other than A and B is BAD_PARAM and a bay whose resource is not free BUSY; a request that
R50 refuses (the other bay open, an identification in flight, a bay that cannot be released) or that restarts the window is returned at
once; one that the projection accepts claims the bay, its card ACTIVE, the bay PREPARING. -/
def Obligations.ReleaseBayCardAsksForARelease : Prop :=
  ∀ s : State, s.ready (some .releaseBay) →
    let n := s.walk.index
    let code := s.param n 0x08 1
    (code ≠ 1 → code ≠ 2 →
      ∃ t, exec .releaseBay s = .next t ∧ t.still = ({ s with walk := t.walk } : State).still ∧ s.cardDone t .badParam 0 [] ∧
        s.attnWithin t) ∧
    ∀ x, code = Sys2Proof.Machine.Bay.code x →
      let b := s.bay x
      let closed := (s.bay (otherBay x)).state.opening = false
      (s.walk.resource (bayResource x) ≠ .free →
        ∃ t, exec .releaseBay s = .next t ∧ t.still = ({ s with walk := t.walk } : State).still ∧ s.cardDone t .busy 0 [] ∧
          s.attnWithin t) ∧
      (s.walk.resource (bayResource x) = .free →
        (∀ d, (d = 1 ∧ ¬ closed) ∨ (d = 3 ∧ closed ∧ (b.state = .seated ∨ b.state = .unusable) ∧ (s.pack x).cardIdent = true) ∨
            (d = 2 ∧ closed ∧ b.state ≠ .released ∧ b.state ≠ .seated ∧ b.state ≠ .unusable) →
          ∃ u t, exec .releaseBay s = .next t ∧ t = State.commit s u ∧ t.still = ({ s with walk := t.walk } : State).still ∧
            s.cardDone t .refusedState d [] ∧ (u.bay x).outcome = some ⟨.card n, .refusedState, d, s.clock⟩ ∧
            (u.bay x).state = b.state ∧ u.walk.resource (bayResource x) = .free ∧ s.attnWithin t) ∧
        (closed → b.state = .released →
          ∃ u t, exec .releaseBay s = .next t ∧ t = State.commit s u ∧ t.still = ({ s with walk := t.walk } : State).still ∧
            s.cardDone t .ok s.bayc.window [] ∧ (u.bay x).window = some ⟨s.clock, 1000 * s.bayc.window⟩ ∧ s.attnWithin t) ∧
        (∀ d, closed → b.state = .seated → (s.pack x).cardIdent = false → (s.project x).refusal = some d →
          ∃ u t, exec .releaseBay s = .next t ∧ t = State.commit s u ∧ t.still = ({ s with walk := t.walk } : State).still ∧
            s.cardDone t .refusedSource d [] ∧ (u.bay x).state = .seated ∧ s.attnWithin t) ∧
        (closed → b.state = .unusable → (s.pack x).cardIdent = false →
          ∃ u t, exec .releaseBay s = .next t ∧ t = State.commit s u ∧ t.still = ({ s with walk := t.walk } : State).still ∧
            s.attnWithin t ∧
            (((u.bay x).state = .released ∧ (u.bay x).lock = true ∧ (u.bay x).window = some ⟨s.clock, 1000 * s.bayc.window⟩ ∧
                s.cardDone t .ok s.bayc.window []) ∨
              ((u.bay x).state = .unusable ∧ (u.budget.entry (lockIndex x)).request = 0 ∧ s.cardDone t .refusedSource 1 []))) ∧
        (closed → b.state = .seated → (s.pack x).cardIdent = false → (s.project x).refusal = none →
          ∃ u t, exec .releaseBay s = .next t ∧ t = State.commit s u ∧ t.still = ({ s with walk := t.walk } : State).still ∧
            (u.bay x).state = .preparing ∧ (u.bay x).request = some ⟨.card n, s.clock⟩ ∧ (u.bay x).prepare = some ⟨s.clock, 2000⟩ ∧
            u.walk.resource (bayResource x) = .held n (s.cardTag n) ∧ u.cardOwner n = 2 ∧
            u.budget.projection = some ⟨x, (s.project x).capacity, s.budget.base⟩ ∧
            (u.budget.entry (lockIndex x)).request = 2400 ∧ s.advanced u ∧ s.attnWithin t ∧ t.attnBit .bayChange = true))

/-- From R34, R175: IDENTIFY_PACK: a bay code other than A and B is BAD_PARAM, a bay whose resource is not free BUSY, a bay neither SEATED
nor UNUSABLE REFUSED_STATE. Else the card claims the bay and becomes ACTIVE: the identification begins, or waits where the channel is in
use; from UNUSABLE the link becomes IDENT, which the zone of the bay takes by R99. -/
def Obligations.IdentifyPackCardStartsAnIdentification : Prop :=
  ∀ s : State, s.ready (some .identifyPack) →
    let n := s.walk.index
    let code := s.param n 0x08 1
    (code ≠ 1 → code ≠ 2 →
      ∃ t, exec .identifyPack s = .next t ∧ t.still = ({ s with walk := t.walk } : State).still ∧ s.cardDone t .badParam 0 [] ∧
        s.attnWithin t) ∧
    ∀ x, code = Sys2Proof.Machine.Bay.code x →
      let p := s.pack x
      let claimed (u : State) : Prop :=
        u.walk.resource (bayResource x) = .held n (s.cardTag n) ∧ u.cardOwner n = 2 ∧ (u.bay x).state = (s.bay x).state ∧ s.advanced u
      (s.walk.resource (bayResource x) = .free →
        ((s.bay x).state ≠ .seated → (s.bay x).state ≠ .unusable →
          ∃ t, exec .identifyPack s = .next t ∧ t.still = ({ s with walk := t.walk } : State).still ∧
            s.cardDone t .refusedState 0 [(0x0A, u16 0), (0x0C, u8 0), (0x0E, u16 0)] ∧ s.attnWithin t) ∧
        ((s.bay x).state = .seated →
          ∃ u t, exec .identifyPack s = .next t ∧ t = State.commit s u ∧ claimed u ∧ s.attnWithin t ∧
            (p.op = none → t.still = ({ s.setPack x { p with identWaiting := false } with walk := t.walk } : State).still ∧
              u.pack x = { p with op := some ⟨.identCard, [], 0, false⟩, interval := none, identWaiting := false }) ∧
            (p.op ≠ none → t.still = ({ s.setPack x { p with identWaiting := true } with walk := t.walk } : State).still ∧
              u.pack x = { p with identWaiting := true })) ∧
        ((s.bay x).state = .unusable →
          ∃ u t, exec .identifyPack s = .next t ∧ t = State.commit s u ∧ claimed u ∧ s.attnWithin t ∧
            t.still =
              ({ s.setPack x { p with link := .ident, identWaiting := false } with therm := t.therm, walk := t.walk } : State).still ∧
            t.therm = s.therm.withPack x { p with link := .ident } false ∧
            u.pack x = { p with link := .ident, op := some ⟨.identCard, [], 0, false⟩, interval := none, identWaiting := false })) ∧
      (s.walk.resource (bayResource x) ≠ .free →
        ∃ t, exec .identifyPack s = .next t ∧ t.still = ({ s with walk := t.walk } : State).still ∧ s.cardDone t .busy 0 [] ∧
          s.attnWithin t)

/-- From R150 to R152, R175: PARK: BUSY where its resource is not free; a park that is PARKED, or RELEASED with PARK_ACK asserted, is PARKED
and the card returned OK; else the park is REQUESTED with the 20 ms timer and the card ACTIVE. RELEASE_PARK: BUSY while the PARK resource is
not free; REFUSED_STATE in FALLING and IMPACT with nothing changed; else the latch is cleared and the park RELEASED. From R153: After each
such card, answered, refused or ACTIVE, the motion page has been rewritten and holds its table. That a BUSY card rewrites it too, and
exactly once, is log entry 15 (DEDUCED). -/
def Obligations.ParkAndReleaseParkCards : Prop :=
  ∀ s : State, s.reports = [] →
    let n := s.walk.index
    let p := s.park
    let same (t : State) : Prop := t = { s with walk := t.walk, attn := t.attn, mem := t.mem }
    let rewritten (t : State) : Prop := t.holdsLayout 0x280 2 0x68 t.motionLayout ∧
      ∃ k, 1 ≤ k ∧ k ≤ 3 ∧ t.num 0x280 2 = (s.num 0x280 2 + 2 * k) % 65536
    (s.ready (some .park) →
      (s.walk.park ≠ .free → ∃ t, exec .park s = .next t ∧ same t ∧ rewritten t ∧ t.walk.park = s.walk.park ∧ s.cardDone t .busy 0 [] ∧ s.attnWithin t ∧
        t.num 0x280 2 = (s.num 0x280 2 + 2) % 65536) ∧
      (s.walk.park = .free → p.state = .parked ∨ (p.state = .released ∧ p.ack = true) →
        ∃ t, exec .park s = .next t ∧ t = { s with park := t.park, walk := t.walk, attn := t.attn, mem := t.mem } ∧
          t.park = { p with state := .parked, timer := if p.state = .released then none else p.timer } ∧ t.walk.park = .free ∧
          s.cardDone t .ok 0 [(0x08, u8 3), (0x09, yesNo p.latch)] ∧ s.attnWithin t ∧ rewritten t) ∧
      (s.walk.park = .free → p.state = .requested ∨ (p.state = .released ∧ p.ack = false) →
        ∃ t, exec .park s = .next t ∧ t = { s with park := t.park, walk := t.walk, attn := t.attn, mem := t.mem } ∧
          t.park = { p with
            state := .requested
            timer := if p.state = .requested ∧ p.timer.isSome = true then p.timer else some ⟨s.clock, 20⟩ } ∧
          t.walk.park = .held n (s.cardTag n) ∧ t.cardOwner n = 2 ∧ s.advanced t ∧ s.attnWithin t ∧ rewritten t)) ∧
    (s.ready (some .releasePark) →
      (s.walk.park ≠ .free → ∃ t, exec .releasePark s = .next t ∧ same t ∧ rewritten t ∧ s.cardDone t .busy 0 [] ∧ s.attnWithin t ∧
        t.num 0x280 2 = (s.num 0x280 2 + 2) % 65536) ∧
      (s.walk.park = .free → s.mot.detector = .falling ∨ s.mot.detector = .impact →
        ∃ t, exec .releasePark s = .next t ∧ same t ∧
          s.cardDone t .refusedState 0 [(0x08, u8 p.state.code), (0x09, yesNo p.latch)] ∧ s.attnWithin t ∧ rewritten t) ∧
      (s.walk.park = .free → s.mot.detector ≠ .falling → s.mot.detector ≠ .impact →
        ∃ t, exec .releasePark s = .next t ∧ t = { s with park := t.park, walk := t.walk, attn := t.attn, mem := t.mem } ∧
          t.park = { p with state := .released, latch := false, timer := if p.state = .released then p.timer else none } ∧
          s.cardDone t .ok 0 [(0x08, u8 1), (0x09, u8 0)] ∧ s.attnWithin t ∧ rewritten t))

/-- From R172, R174: A card whose kind the table does not list is returned UNKNOWN_KIND with detail 0, and nothing else happens: between
steps, when no report waits, the next state is the state itself but for the walker's state, index and recheck timer and its taken flag,
CARD_DONE and LIST_IDLE, the header of the card and the walker's two bytes of the control block. A card row does nothing while the walker
does not run, or where the card at its slot is of another kind; where the slot is not takeable the walker waits there: that a row takes one
card of its kind, and what it does otherwise, is the model's choice (log entry 11). -/
def Obligations.UnknownKindsAndIdleCardRows : Prop :=
  ∀ s : State,
    (s.ready none → ∃ t, exec .unknownKindCard s = .next t ∧ t.still = ({ s with walk := t.walk } : State).still ∧
      s.cardDone t .unknownKind 0 [] ∧ s.attnWithin t) ∧
    (s.ready none → s.reports = [] →
      ∃ t, exec .unknownKindCard s = .next t ∧ t = { s with walk := t.walk, attn := t.attn, mem := t.mem } ∧
        (∃ w taken timer, t.walk = { s.walk with state := w, index := s.walk.index + 1, taken, recheckTimer := timer }) ∧
        t.attn.mask = s.attn.mask ∧
        (∀ b, t.attnBit b = true ↔ s.attnBit b = true ∨ b = .cardDone ∨ (b = .listIdle ∧ t.walk.state = .waiting)) ∧
        s.cardDone t .unknownKind 0 [] ∧ (t.byte 0x40).toNat = t.walk.state.code ∧ (t.byte 0x41).toNat = t.walk.index.toNat ∧
        ∀ a, a ≠ 0x40 → a ≠ 0x41 →
          a ≠ Mem.slot s.walk.index → (a < Mem.slot s.walk.index + 2 ∨ Mem.slot s.walk.index + 8 ≤ a) → t.byte a = s.byte a) ∧
    (s.reports = [] → ∀ (kind : Option CardKind) (v : Supply),
      (s.walk.state ≠ .running ∨ (s.takeable s.walk.index = true ∧ s.cardKind s.walk.index ≠ kind) →
        exec (cardCommand kind v) s = .next s) ∧
      (s.walk.state = .running → s.takeable s.walk.index = false →
        ∃ t, exec (cardCommand kind v) s = .next t ∧
          t = { s with
            walk := { s.walk with
              state := .waiting, taken := false
              recheckTimer := if s.walk.recheck = 0 then none else some ⟨s.clock, 10 * s.walk.recheck⟩ }
            attn := t.attn, mem := t.mem } ∧
          s.attnWithin t ∧ (s.walk.taken = true → t.attnBit .listIdle = true) ∧ (t.byte 0x40).toNat = 3 ∧
          ∀ a, a ≠ 0x40 → a ≠ 0x41 → t.byte a = s.byte a))

/-! ### What every step keeps -/

/-- From R167, section 13.2, section 4.2: Every step keeps the exchange memory in its canonical form, the budget table at its twelve
entries, the curve within its page, and the identity block at its fixed values. -/
def Obligations.EveryStepKeepsTheMemoryForm : Prop :=
  ∀ s t : State, s.tablesSound → s.memorySound → (∀ a, a < 0x40 → s.byte a = Mem.background a) → step s = .next t →
    t.tablesSound ∧ t.memorySound ∧ ∀ a, a < 0x40 → t.byte a = Mem.background a

/-- From R58: Every step keeps each bay's lock energized exactly while the bay is RELEASED. From R50: Every step keeps at most one of the
two bays in PREPARING or RELEASED. From R8, R7: Every step keeps a pack's switch closed only while its bay is SEATED, PREPARING or
IDENTIFYING. From R58: Then a RELEASED bay's switch is open and its pack is not charged. A loss that PATH has been told and has not taken
yet counts as an open switch; a step takes every report, up to the bound of log entry 6. -/
def Obligations.EveryStepKeepsTheLocksAndOneBayOpening : Prop :=
  (∀ s t : State, s.locksSound → step s = .next t → t.locksSound) ∧
  (∀ s t : State, s.oneOpening → step s = .next t → t.oneOpening) ∧
  (∀ s t : State, s.switchesSound → step s = .next t → t.switchesSound) ∧
  ∀ s t : State, s.switchesSound → s.chargeSound → step s = .next t → t.releasedSound

/-- From R178, R20, R106, R117, R141, R151: Every step keeps each level bit set while its condition holds. From R178, R179: An attention bit
that is set is cleared by a write to ATTN, a platform reset or a power-on reset alone. -/
def Obligations.AttentionBitsStayUntilTheHostClearsThem : Prop :=
  (∀ s t : State, s.levelsSound → step s = .next t → t.levelsSound) ∧
  ∀ (i : Instr) (s t : State), wellFormed i = true → (∀ v, i ≠ .attnWrite v) → (∀ v, i ≠ .softReset v) → i ≠ .hrstDeglitchExpiry →
    (∀ p, i ≠ .powerOnReset p) → exec i s = .next t → s.attnWithin t

/-- From R72: Every step keeps the sum of all grants within the headroom, which is max(0, capacity − base load). -/
def Obligations.EveryStepKeepsGrantsWithinHeadroom : Prop :=
  ∀ s t : State, s.grantsSound → step s = .next t → t.grantsSound

/-- From R129: Every step keeps the present duty within the ceiling and within each cap, and its power within the BACKLIGHT grant. From R74:
The grant that BLD holds is its entry's. From R105, R127: Its factor is the one of the zone levels, the thermal cap is within it, and
without the token the boost cap is within D_norm. From R82: A duty above D_norm stands only while the token is BACKLIGHT (a token change
that BLD has not taken yet apart, log entry 6). From R126, R128, R135: Outside ACTIVE every duty, the request and the floor are 0. Every
step keeps each of these. That the requested duty stays 0 in the derivations outside ACTIVE is log entry 39 (DEDUCED). -/
def Obligations.EveryStepKeepsTheDutyWithinTheGrant : Prop :=
  (∀ s t : State, s.bld.dutySound → step s = .next t → t.bld.dutySound) ∧
  (∀ s t : State, s.bldHanded → step s = .next t → t.bldHanded) ∧
  (∀ s t : State, s.capsSound → step s = .next t → t.capsSound) ∧
  (∀ s t : State, s.bld.dutySound → s.capsSound → step s = .next t → t.boostSound) ∧
  ∀ s t : State, s.darkSound → step s = .next t → t.darkSound

/-- From R91: Every step keeps the commanded power within the CHARGER grant and the request, and CHG_EN asserted in CHARGING alone. From
R87: After every step a CHARGING charger charges one pack, that of a SEATED bay whose switch is open, and IN feeds. From R74: Every step
keeps the grant that CHG holds equal to its entry's. From R89, R102: Every step keeps the charge factor that CHG holds equal to the one of
the zone levels. From R82: Every step keeps the rate FAST only while the token is CHARGER. -/
def Obligations.EveryStepKeepsChargingWithinItsBounds : Prop :=
  (∀ s t : State, s.chg.powerSound → step s = .next t → t.chg.powerSound) ∧
  (∀ s t : State, s.chargeSound → step s = .next t → t.chargeSound) ∧
  (∀ s t : State, s.chgHanded → step s = .next t → t.chgHanded) ∧
  (∀ s t : State, s.factorSound → step s = .next t → t.factorSound) ∧
  ∀ s t : State, s.fastSound → step s = .next t → t.fastSound

/-- From R148, R150, R151: Every step keeps FREEFALL in the hold set exactly while the detector is FALLING or in an IMPACT of kind DROP, and
PARK_REQ asserted while the detector is FALLING or the latch set. -/
def Obligations.EveryStepKeepsHoldAndParkWithTheFall : Prop :=
  (∀ s t : State, s.freefallSound → step s = .next t → t.freefallSound) ∧
    ∀ s t : State, s.parkSound → step s = .next t → t.parkSound

/-- From R14, R17: Every step keeps a transfer record exactly in MAKING and PAUSED, MAKING without a hold and PAUSED with one. From R20,
R21: Every step keeps every switch open and the measured load 0 in BROWNOUT. From R20, R15: Every step keeps some source feeding outside
BROWNOUT, with the incoming set of a record closed; a power-on reset, in which the first switch is closed (R24), brings this about from any
state. -/
def Obligations.EveryStepKeepsTheTransferRecord : Prop :=
  (∀ s t : State, s.path.recordSound → s.path.holdSound → step s = .next t → t.path.recordSound ∧ t.path.holdSound) ∧
  (∀ s t : State, s.brownoutSound → step s = .next t → t.brownoutSound) ∧
  (∀ s t : State, s.path.recordSound → s.brownoutSound → s.fedSound → step s = .next t → t.fedSound) ∧
  ∀ (pins : Pins) (s : State), ∃ t, exec (.powerOnReset pins) s = .next t ∧ t.fedSound

/-- From R174: Every step keeps every setting within its range. -/
def Obligations.EveryStepKeepsSettingsInRange : Prop :=
  ∀ s t : State, s.settingsSound → step s = .next t → t.settingsSound

/-- From R172, R175: Every step keeps each card slot named by at most one entry of the resource table. -/
def Obligations.EveryStepKeepsClaimedSlotsDistinct : Prop :=
  ∀ s t : State, s.slotsDistinct → step s = .next t → t.slotsDistinct

/-! ### What no other command touches -/

/-- From R167: No command but a memory write of the host and a power-on reset changes a byte outside the regions that the part writes. From
R171, R162, R163: A card slot that no resource entry names and at which the walker does not stand is changed by no command but a memory
write of the host and a power-on reset. From R185: No command but those two changes the kind byte of a slot, or a byte behind the last
result field that a kind has. The impact ring and its counts are changed by a completed motion read and a power-on reset alone. -/
def Obligations.EachWriterKeepsToItsRegions : Prop :=
  (∀ (i : Instr) (s t : State) (a : Nat), s.tablesSound → (∀ b d, i ≠ .memoryWrite b d) → (∀ p, i ≠ .powerOnReset p) →
     exec i s = .next t → Mem.partWritten a = false → t.byte a = s.byte a) ∧
  (∀ (i : Instr) (s t : State) (n : BitVec 5) (k : Nat), s.tablesSound → (∀ b d, i ≠ .memoryWrite b d) → (∀ p, i ≠ .powerOnReset p) →
    exec i s = .next t → (∀ m tag, s.walk.resource m ≠ .held n tag) → n ≠ s.walk.index → k < 64 →
    t.byte (Mem.slot n + k) = s.byte (Mem.slot n + k)) ∧
  (∀ (i : Instr) (s t : State) (n : BitVec 5) (k : Nat), s.tablesSound → (∀ b d, i ≠ .memoryWrite b d) → (∀ p, i ≠ .powerOnReset p) →
    exec i s = .next t → k = 1 ∨ (0x1C ≤ k ∧ k < 64) → t.byte (Mem.slot n + k) = s.byte (Mem.slot n + k)) ∧
  ∀ (i : Instr) (s t : State), s.tablesSound → (∀ q x y z, i ≠ .motionReadDone q x y z) → (∀ p, i ≠ .powerOnReset p) →
    exec i s = .next t →
    (t.icl.nextSeq = s.icl.nextSeq ∧ t.icl.written = s.icl.written ∧ t.icl.lost = s.icl.lost) ∧
      ∀ a, 0x1000 ≤ a → a < 0x1200 → t.byte a = s.byte a

/-! ### The arithmetic of the blocks -/

/-- From R101: The level of a zone after an update: n_up where that is greater, else n_hold where that is less, else as it was. n_hold is
never less than n_up, a second update from the same temperature changes nothing, a pack zone with the default trips at 53.0 °C reads 1 when
it has warmed from level 0 and 2 when it has cooled from level 2, and a zone in fault or forced is not updated. -/
def Obligations.ZoneLevelsFollowTheirTrips : Prop :=
  ∀ (z : Zone) (t : Int),
    let count (u : Int) : Nat := (if z.t1 ≤ u then 1 else 0) + (if z.t2 ≤ u then 1 else 0) + (if z.t3 ≤ u then 1 else 0)
    let up := count t
    let hold := count (t + z.hyst)
    (z.level < up → z.nextLevel t = up) ∧ (up ≤ z.level → hold < z.level → z.nextLevel t = hold) ∧
      (up ≤ z.level → z.level ≤ hold → z.nextLevel t = z.level) ∧ up ≤ hold ∧
      ({ z with level := z.nextLevel t } : Zone).nextLevel t = z.nextLevel t ∧
      (z.t1 = 450 → z.t2 = 550 → z.t3 = 600 → z.hyst = 30 → t = 530 →
        (z.level = 0 → z.nextLevel t = 1) ∧ (z.level = 2 → z.nextLevel t = 2)) ∧
      ∀ t1 t2 t3 hyst, z.fault = true ∨ z.forced = true → (z.withTrips t1 t2 t3 hyst).level = z.level

/-- From R113: The raw lux: the visible count is C less floor(I × R / 256), or 0; the raw lux is floor(visible × 2 / g), at most 131,071.
With I at 0 the largest unsaturated count gives 131,068, 16,383 and 2,047 at the gains 1, 8 and 64; with R at 0 nothing is subtracted. From
R114: The next gain of each of the three gains; a count that raised the gain does not lower it again, nor one that lowered it raise it; in
steady light, whose counts follow the gain, at most two changes come. -/
def Obligations.RawLuxAndNextGainFollowTheirRules : Prop :=
  (∀ c i r g : Nat,
     (c ≤ i * r / 256 → rawLux c i r g = 0) ∧
     (i * r / 256 ≤ c → ∀ visible, visible + i * r / 256 = c → 0 < g →
       (visible * 2 / g ≤ 131071 → rawLux c i r g = visible * 2 / g) ∧ (131071 < visible * 2 / g → rawLux c i r g = 131071)) ∧
     (rawLux 65534 0 r 1 = 131068 ∧ rawLux 65534 0 r 8 = 16383 ∧ rawLux 65534 0 r 64 = 2047) ∧ rawLux c i 0 g = rawLux c 0 r g) ∧
  ∀ c i g : Nat, g = 1 ∨ g = 8 ∨ g = 64 →
    ((60000 ≤ c ∨ 60000 ≤ i) → 1 < g → nextGain c i g = g / 8) ∧
    (c < 2000 → i < 2000 → g < 64 → nextGain c i g = g * 8) ∧
    (¬ ((60000 ≤ c ∨ 60000 ≤ i) ∧ 1 < g) → ¬ (c < 2000 ∧ i < 2000 ∧ g < 64) → nextGain c i g = g) ∧
    (nextGain c i g = 1 ∨ nextGain c i g = 8 ∨ nextGain c i g = 64) ∧
    (nextGain c i g = g * 8 → g < 64 → nextGain (c * 8) (i * 8) (g * 8) ≠ g) ∧
    (nextGain c i g = g / 8 → 1 < g → nextGain (c / 8) (i / 8) (g / 8) ≠ g) ∧
    let next (g : Nat) : Nat := nextGain (c * g / 64) (i * g / 64) g
    next (next (next g)) = next (next g)

/-- From R115: F moves toward the raw lux by floor(distance × weight / 16), at least 1, with the rise weight upward and the fall weight
downward; it never passes the raw lux, shrinks the distance at every sample, reaches it at once with a weight of 16, and in a finite number
of samples with any. -/
def Obligations.FilteredLuxApproachesTheRawLux : Prop :=
  ∀ f raw rise fall : Nat, f ≤ 131071 → raw ≤ 131071 → 1 ≤ rise → rise ≤ 16 → 1 ≤ fall → fall ≤ 16 →
    let next := smooth f raw rise fall
    (f < raw → next = f + max 1 ((raw - f) * rise / 16)) ∧ (raw < f → next = f - max 1 ((f - raw) * fall / 16)) ∧
      (f = raw → next = f) ∧ (min f raw ≤ next ∧ next ≤ max f raw) ∧
      (f < raw → raw - next < raw - f) ∧ (raw < f → next - raw < f - raw) ∧
      (rise = 16 → f < raw → next = raw) ∧ (fall = 16 → raw < f → next = raw) ∧
      ∃ k, Nat.repeat (fun g => smooth g raw rise fall) k f = raw

/-- From R122, R125: The curve luminance: the first point's at or below its lux, the last point's at or above its lux, and on a segment the
linear value with the quotient truncated toward zero, never outside the luminances of the segment's ends; the default curve gives 60 nits at
25 lux and 1,000 from 100,000 on. The target: in AUTO that plus the offset within 0 to N_full, in MANUAL the manual nits up to N_full, in
OFF 0. From R128, R129: The power of a duty is ceil(d × P / 1023), 0 for duty 0; the power of the budget cap floor(grant × 1023 / P) never
exceeds the grant, and a grant that covers the power of a duty gives a budget cap of at least that duty. From R126 to R130: A derivation, by
its formulas: target, requested duty (in ACTIVE and in OFF), demand duty (0 outside ACTIVE and in OFF), the three caps, the ceiling, the cut
of the present duty, and the request and the floor, handed to BUDGET where either differs. -/
def Obligations.BacklightArithmeticFollowsItsRules : Prop :=
  ((∀ (c : List CurvePoint) (first last : CurvePoint) (f : Nat), c.Pairwise (fun p q => p.lux < q.lux) →
     c.head? = some first → c.getLast? = some last →
     (f ≤ first.lux → curveAt c f = first.nits) ∧ (last.lux ≤ f → curveAt c f = last.nits) ∧
     ∀ front p q rest, c = front ++ p :: q :: rest → p.lux ≤ f → f < q.lux →
       (curveAt c f : Int) = p.nits + Int.tdiv (((q.nits : Int) - p.nits) * ((f : Int) - p.lux)) ((q.lux : Int) - p.lux) ∧
         min p.nits q.nits ≤ curveAt c f ∧ curveAt c f ≤ max p.nits q.nits) ∧
   curveAt defaultCurve 25 = 60 ∧ (∀ f, 100000 ≤ f → curveAt defaultCurve f = 1000) ∧
   ∀ (b : Bld) (curve : Nat),
     (b.mode = .auto → (b.targetNits curve : Int) = max 0 (min (b.nFull : Int) (curve + b.offset))) ∧
     (b.mode = .manual → b.targetNits curve = min b.manual b.nFull) ∧ (b.mode = .off → b.targetNits curve = 0)) ∧
  (∀ p d g : Nat, 0 < p →
    d * p ≤ 1023 * dutyPower p d ∧ 1023 * dutyPower p d < d * p + 1023 ∧ dutyPower p 0 = 0 ∧ dutyPower p (g * 1023 / p) ≤ g ∧
      (dutyPower p d ≤ g → d ≤ g * 1023 / p)) ∧
  ∀ (s : State) (install : Bld → Bld), s.tablesSound →
    let b := install s.bld
    let lit := s.active = true ∧ b.mode ≠ .off
    let target := b.targetNits (if b.mode = .auto then curveAt b.curve b.f else b.curveNits)
    let requested := if lit then max b.dMin (target * 1023 / b.nFull) else 0
    let demand := if lit then max b.demand requested else 0
    let thermalCap := 1023 * b.factor / 100
    let boostCap := if b.token = .backlight then 1023 else b.nNorm * 1023 / b.nFull
    let capped := min demand (min thermalCap boostCap)
    let request := if lit then dutyPower b.power capped else 0
    let floor := if lit then dutyPower b.power b.dMin else 0
    let budgetCap := if b.lastState = .granted then b.lastGrant * 1023 / b.power else 0
    let t := s.derive install
    (t.bld.target = target ∧ (s.active = true ∨ b.mode = .off → t.bld.requested = requested) ∧ t.bld.demand = demand ∧ t.bld.thermalCap = thermalCap ∧
      t.bld.boostCap = boostCap ∧ t.bld.capped = capped ∧ t.bld.request = request ∧ t.bld.floor = floor ∧
      t.bld.budgetCap = budgetCap ∧ t.bld.ceiling = min capped budgetCap ∧ t.bld.present = min b.present (min capped budgetCap)) ∧
    (b.request ≠ request ∨ b.floor ≠ floor →
      (t.budget.entry 2).request = request ∧ (t.budget.entry 2).floor = floor ∧ Report.recompute ∈ t.reports) ∧
    (b.request = request → b.floor = floor →
      (t.budget.entry 2).request = (s.budget.entry 2).request ∧ (t.budget.entry 2).floor = (s.budget.entry 2).floor)

/-- From R72, R68: The grant procedure on a table whose priorities are 0 to 7: requests, floors and priorities stay; an entry without a
request is INACTIVE with no grant; a GRANTED one has at least its floor and at most its request, and where it has less than its request the
whole headroom is granted and every later one in grant order is at its floor; a SHED one has no grant, and its floor did not fit beside the
floors granted before it in grant order; the grants sum to no more than the headroom. From R6, R38, R64: The limit of IN is the override,
else the class with UNKNOWN at 45,000 mW, 0 while not PRESENT; that of a pack 0 by link NONE, else its basis by the discharge factor of its
zone level. From R65, R67, R73, R74: A computation writes the limits, takes the capacity of the capacity set less the margin, the headroom
above the base load, and the grants of the procedure, and hands a changed lock grant to BAYC. From R77, R78, R51: A projection takes the
capacity of the preferred set without the bay and the grants with its lock at 2,400 mW; it is refused for a shed lock (1), then for a
predicted load and swap margin above the capacity (2). -/
def Obligations.GrantsShareTheHeadroomInOrder : Prop :=
  (∀ (headroom : Nat) (es : List Entry), (∀ e ∈ es, e.priority ≤ 7) →
    let old (k : Nat) : Entry := es.getD k (.reset .host 0)
    let new (k : Nat) : Entry := (grantTable headroom es).getD k (.reset .host 0)
    let floor (k : Nat) : Nat := min (old k).floor (old k).request
    let before (j k : Nat) : Bool :=
      Nat.blt (old k).priority (old j).priority || ((old j).priority == (old k).priority && Nat.blt j k)
    (grantTable headroom es).length = es.length ∧ grantSum (grantTable headroom es) ≤ headroom ∧
    ∀ k, k < es.length →
      ((new k).kind = (old k).kind ∧ (new k).priority = (old k).priority ∧ (new k).request = (old k).request ∧
        (new k).floor = (old k).floor) ∧
      ((old k).request = 0 → (new k).state = .inactive ∧ (new k).grant = 0) ∧
      ((old k).request ≠ 0 → (new k).state = .granted ∨ (new k).state = .shed) ∧
      ((new k).state = .granted → floor k ≤ (new k).grant ∧ (new k).grant ≤ (old k).request ∧
        ((new k).grant < (old k).request → grantSum (grantTable headroom es) = headroom ∧
          ∀ j, j < es.length → before k j = true → (new j).state = .granted → (new j).grant = floor j)) ∧
      ((new k).state = .shed → (new k).grant = 0 ∧
        headroom < floor k +
          (((List.range es.length).filter (fun j => before j k && (new j).state == .granted)).map floor).sum)) ∧
  ∀ s : State,
    let inlet : Nat :=
      if s.smon.inlet.presence ≠ .present then 0 else if s.smon.override ≠ 0 then s.smon.override
      else match s.smon.adapter with
        | some .mw45 => 45000
        | some .mw65 => 65000
        | some .mw90 => 90000
        | some .mw130 => 130000
        | some .unknown => 45000
        | none => 0
    let limit (x : Bay) : Nat :=
      if (s.pack x).link = .none then 0
      else
        (if (s.pack x).link = .lost then 15000 else numOf Snapshot.maxPower (s.pack x).snapshot +
          if (s.pack x).snapshot = none then 30000 else 0) * [100, 100, 75].getD (s.therm.zone (bayZone x)).level 50 / 100
    let capacity (t : SourceSet) : Nat :=
      ((if t.inlet then inlet else 0) + (if t.packA then limit .a else 0) + (if t.packB then limit .b else 0)) *
        (100 - s.budget.margin) / 100
    let set : SourceSet :=
      if s.path.mode = .brownout then .empty
      else if (s.bay .a).state = .preparing ∨ (s.bay .b).state = .preparing then s.preferred else s.feeding
    let grants (es : List Entry) : List (Nat × EntryState) := es.map (fun e => (e.grant, e.state))
    (let t := s.computeTable
     (t.smon.inlet.limit = inlet ∧ ∀ x, (t.source (packSource x)).limit = limit x) ∧ t.budget.capacity = capacity set ∧
       t.budget.headroom = capacity set - s.budget.base ∧
       grants t.budget.entries = grants (grantTable (capacity set - s.budget.base) s.budget.entries) ∧ s.attnWithin t ∧
       (∀ x, (t.budget.entry (lockIndex x)).grant ≠ (s.budget.entry (lockIndex x)).grant ∨
           (t.budget.entry (lockIndex x)).state ≠ (s.budget.entry (lockIndex x)).state →
         Report.lockGrant x (t.budget.entry (lockIndex x)).grant ∈ t.reports) ∧
       ((∃ k, k < s.budget.entries.length ∧ (s.budget.entry k).state = .granted ∧ (t.budget.entry k).state = .shed) →
         t.attnBit .budgetShed = true)) ∧
    ∀ x,
      let preferred := preferredFrom s.path.discharge s.path.reserve (s.eligible .inlet) (s.eligible .packA && x != .a)
        (s.eligible .packB && x != .b) (s.pack .a).charge (s.pack .b).charge
      let entries := s.budget.entries.set (lockIndex x) { s.budget.entry (lockIndex x) with request := 2400, floor := 2400 }
      let projected := grantTable (capacity preferred - s.budget.base) entries
      let predicted := max 0 ((s.path.measured : Int) - ((grantSum s.budget.entries : Int) - grantSum projected))
      let v := s.project x
      let shed := (projected.getD (lockIndex x) (.reset .host 0)).state = .shed
      v.capacity = capacity preferred ∧ (v.predicted : Int) = predicted ∧ (v.refusal = some 1 ↔ shed) ∧
        (v.refusal = some 2 ↔ ¬ shed ∧ (capacity preferred : Int) < predicted + s.budget.swapMargin) ∧
        (v.refusal = none ↔ ¬ shed ∧ predicted + s.budget.swapMargin ≤ (capacity preferred : Int))

/-- From R156: The height of a fall from its samples: t is floor(samples × 5 / 4) ms and the height floor(9,807 × t × t / 2,000,000) mm, at
most 65,535, which it reaches from 2,925 samples on; the table's six lines. A SHOCK reads as height 0. From R157, R158: The severity is the
highest severity among the rules whose final result is true, 0 without one. A rule's raw result is figure ≥ value, turned round by invert;
chained, it needs the final result of the rule before it, rule 0 that of FALL_SEEN; a rule not enabled is false. -/
def Obligations.FallHeightAndSeverityFollowTheirRules : Prop :=
  ((∀ n : Nat, n ≤ 65535 →
     let t := n * 5 / 4
     dropHeight n = min 65535 (9807 * t * t / 2000000) ∧ t ≤ 81918 ∧ (2925 ≤ n ↔ 65535 < 9807 * t * t / 2000000)) ∧
   (dropHeight 64 = 31 ∧ dropHeight 100 = 76 ∧ dropHeight 320 = 784 ∧ dropHeight 326 = 812 ∧ dropHeight 2924 = 65505 ∧
     dropHeight 2925 = 65535) ∧
   ∀ f : Finished, (f.kind = .shock → f.height = 0) ∧ (f.kind ≠ .shock → f.height = dropHeight f.fall)) ∧
  ∀ (c : Icl) (f : Finished),
    let figure : ClassField → Nat := fun
      | .peak => f.peak
      | .height => f.height
      | .overCount => f.overs
      | .rebounds => f.rebounds
      | .fallSeen => if f.kind = .shock then 0 else 1
    let final (r : ClassRule) (partner : Prop) : Prop :=
      r.enable = true ∧ (r.invert = false ↔ r.value ≤ figure r.field) ∧ (r.chain = true → partner)
    let f0 := final c.rule0 (f.kind ≠ .shock)
    let f1 := final c.rule1 f0
    let f2 := final c.rule2 f1
    let f3 := final c.rule3 f2
    (f0 → c.rule0.severity ≤ c.severity f) ∧ (f1 → c.rule1.severity ≤ c.severity f) ∧ (f2 → c.rule2.severity ≤ c.severity f) ∧
      (f3 → c.rule3.severity ≤ c.severity f) ∧
      (c.severity f = 0 ∨ (f0 ∧ c.severity f = c.rule0.severity) ∨ (f1 ∧ c.severity f = c.rule1.severity) ∨
        (f2 ∧ c.severity f = c.rule2.severity) ∨ (f3 ∧ c.severity f = c.rule3.severity))

/-- From R162 to R164: A record is placed whole in slot W mod 16, then W grows by one, the control block shows it and IMPACT_LOGGED is
raised; with 16 unread records it is discarded, the ring, W and the attention bits stay, and the lost count grows by one up to 255. Unread
is W − Rd modulo 256, taken as 0 above 16. From R154, R155, R161, R47, section 13.6: A finished measurement becomes a record with each field
of the table at its offset and 0 in every other byte; the sequence number grows by one, the glitch counts return to 0, and the record is
placed as above. By severity 1 or more each pack has a forced poll, begun or pending; by 2 or more POST_IMPACT is placed with a fresh 2,000
ms and each pack with a link is SUSPECT; by 3 the park is latched and asked for, with PARK_LATCHED. -/
def Obligations.RecordsArePlacedInTheRing : Prop :=
  (∀ (s : State) (record : List Byte), record.length = 32 →
    let unread := (s.icl.written - s.byte 0x43).toNat
    let slot := 0x1000 + 32 * (s.icl.written.toNat % 16)
    let t := s.place record
    (unread ≠ 16 →
      t = { s with icl := { s.icl with written := s.icl.written + 1 }, attn := t.attn, mem := t.mem } ∧
        (∀ k, k < 32 → t.byte (slot + k) = record.getD k 0) ∧ t.byte 0x42 = s.icl.written + 1 ∧ s.attnWithin t ∧
        t.attnBit .impactLogged = true ∧ ∀ a, a ≠ 0x42 → (a < slot ∨ slot + 32 ≤ a) → t.byte a = s.byte a) ∧
    (unread = 16 →
      t = { s with icl := { s.icl with lost := min 255 (s.icl.lost + 1) }, mem := t.mem } ∧
        t.byte 0x44 = BitVec.ofNat 8 (min 255 (s.icl.lost + 1)) ∧ ∀ a, a ≠ 0x44 → t.byte a = s.byte a)) ∧
  ∀ (s : State) (f : Finished), s.tablesSound →
    let severity := s.icl.severity f
    let unread := (s.icl.written - s.byte 0x43).toNat
    let slot := 0x1000 + 32 * (s.icl.written.toNat % 16)
    let t := s.logImpact f
    (unread ≠ 16 → t.holdsLayout slot 0 32 (s.recordLayout f s.icl.nextSeq.toNat severity) ∧ t.icl.written = s.icl.written + 1 ∧
      t.attnBit .impactLogged = true) ∧
    (unread = 16 → t.icl.written = s.icl.written ∧ t.icl.lost = min 255 (s.icl.lost + 1)) ∧
    (t.icl.nextSeq = s.icl.nextSeq + 1 ∧ ∀ x, (t.bay x).glitches = 0 ∧ (t.bay x).state = (s.bay x).state) ∧
    (severity = 0 → t.glu = s.glu ∧ t.path = s.path ∧ t.park = s.park ∧ t.reports = s.reports) ∧
    (1 ≤ severity → ∀ x, ((s.pack x).op.isSome = true → (t.pack x).forcedPending = true) ∧
      ((s.pack x).op = none → s.pollable x = true → (t.pack x).op.isSome = true)) ∧
    (severity = 1 → t.path = s.path ∧ t.park = s.park ∧ ∀ x, (t.pack x).suspect = (s.pack x).suspect) ∧
    (2 ≤ severity →
      (t.path.holds = { s.path.holds with postImpact := true } ∧ t.path.postImpact = some ⟨s.clock, 2000⟩ ∧
        (∀ r, s.path.mode = .making → s.path.transfer = some r → t.path.mode = .paused)) ∧
      ∀ x, ((s.pack x).link ≠ .none → (t.pack x).suspect = true) ∧
        ((s.pack x).link = .none → (t.pack x).suspect = (s.pack x).suspect)) ∧
    (severity = 2 → t.park = s.park) ∧
    (3 ≤ severity → t.park.latch = true ∧ t.park.req = true ∧ t.attnBit .parkLatched = true) ∧ s.attnWithin t

/-! ### What PATH closes and opens -/

/-- From R10, R11: A source is eligible, and a pack a last-resort candidate, by their conditions. From R13: The preferred set is IN where it
is eligible, every eligible pack in PARALLEL mode, and in SEQUENTIAL mode the lower charge above the reserve, else the higher charge, equal
charges to A. From R15, R16: In STEADY, without a hold, a preferred set that is not empty and not what feeds begins a planned transfer:
without an incoming source it only removes; else it is made, its record with the reason of the first test that holds. In MAKING and PAUSED
an evaluation changes nothing. From R20: In BROWNOUT it closes the preferred set, else the last-resort pack of higher charge. From R18: A
rescue opens the lost source; it leaves the outgoing set, or abandons the transfer where it was incoming. From R19: Where nothing is left it
closes the preferred set, else the last-resort pack of higher charge, else the path is in BROWNOUT with PFW# and its bit, the measured load
0. -/
def Obligations.PathClosesTheSourcesOfItsRules : Prop :=
  ∀ s : State,
    let charge (x : Bay) : Nat := match (s.pack x).snapshot with
      | some t => t.charge
      | none => 50
    let ends (x : Bay) : Prop := ∃ t, (s.pack x).snapshot = some t ∧ t.alarms.terminateDischarge = true
    let pack (x : Bay) : Bool := s.eligible (packSource x)
    let old := s.feeding
    let wanted := s.preferred
    let same (t : State) : Prop := t.feeding = old ∧ t.path = s.path
    let best (x : Bay) : Prop := s.lastResort x = true ∧ (s.lastResort (otherBay x) = true →
      charge (otherBay x) < charge x ∨ (charge (otherBay x) = charge x ∧ x = .a))
    let none' : Prop := s.lastResort .a = false ∧ s.lastResort .b = false
    let steady (t : State) : Prop :=
      t.path = { s.path with mode := .steady, transfer := none } ∧ t.lines.pfw = false ∧ Report.evaluate false ∈ t.reports
    ((s.eligible .inlet = true ↔ s.smon.inlet.presence = .present ∧ s.smon.inlet.above = true) ∧
      ∀ x,
        let e := s.source (packSource x)
        (pack x = true ↔ e.presence = .present ∧ e.above = true ∧ (s.bay x).state = .seated ∧ (s.pack x).link ≠ .lost ∧
          (s.pack x).suspect = false ∧ ¬ ends x) ∧
        (s.lastResort x = true ↔ pack x = false ∧ e.above = true ∧
          ((s.bay x).state = .seated ∨ (s.bay x).state = .preparing ∨ (s.bay x).state = .identifying) ∧ ¬ ends x)) ∧
    ((s.eligible .inlet = true → wanted = ⟨true, false, false⟩) ∧
      (s.eligible .inlet = false →
        (s.path.discharge = .parallel → wanted = ⟨false, pack .a, pack .b⟩) ∧
        (s.path.discharge = .sequential →
          let above (x : Bay) : Prop := pack x = true ∧ s.path.reserve < charge x
          wanted.inlet = false ∧ ∀ x,
            let y := otherBay x
            (above x → (wanted.has (packSource x) = true ↔
              (above y → charge x < charge y ∨ (charge x = charge y ∧ x = .a)))) ∧
            (¬ above x → (wanted.has (packSource x) = true ↔ pack x = true ∧ ¬ above y ∧
              (pack y = true → charge y < charge x ∨ (charge x = charge y ∧ x = .a))))))) ∧
    (∀ policy : Bool,
      let t := s.evaluate policy
      let incoming := wanted.less old
      let outgoing := old.less wanted
      let due := s.path.holds.isEmpty = true ∧ wanted ≠ .empty ∧ wanted ≠ old
      let reason : Reason :=
        if s.preparing = some .a ∧ outgoing.packA = true then .releaseA
        else if s.preparing = some .b ∧ outgoing.packB = true then .releaseB
        else if incoming.inlet = true then .inReturn
        else if policy then .policy else .sequential
      (s.path.mode = .making ∨ s.path.mode = .paused → same t) ∧
      (s.path.mode = .steady →
        (¬ due → same t) ∧
        (due → incoming = .empty → t.feeding = wanted ∧ t.path = s.path ∧ t.attnBit .sourceChange = true) ∧
        (due → incoming ≠ .empty → t.feeding = old.union wanted ∧ t.attnBit .sourceChange = true ∧
          t.path = { s.path with
            mode := .making, transfer := some ⟨incoming, outgoing, reason, s.clock, some ⟨s.clock, 20⟩⟩ })) ∧
      (s.path.mode = .brownout →
        (wanted ≠ .empty → t.feeding = old.union wanted ∧ steady t ∧ t.attnBit .sourceChange = true) ∧
        (wanted = .empty → ∀ x, best x → t.feeding = old.union (.single (packSource x)) ∧ steady t ∧ t.attnBit .sourceChange = true) ∧
        (wanted = .empty → none' → same t))) ∧
    ∀ x : Source, (s.source x).closed = true →
      let t := s.rescue x
      let rest := old.less (.single x)
      let incoming (r : Transfer) : Prop := r.incoming.has x = true
      let kept (r : Transfer) : SourceSet := rest.less (r.incoming.less (.single x))
      (t.feeding ≠ old → t.attnBit .sourceChange = true) ∧ s.attnWithin t ∧
      (rest ≠ .empty →
        (s.path.transfer = none → t.feeding = rest ∧ steady t) ∧
        (∀ r, s.path.transfer = some r → ¬ incoming r → t.feeding = rest ∧
          t.path = { s.path with transfer := some { r with outgoing := r.outgoing.less (.single x) } }) ∧
        ∀ r, s.path.transfer = some r → incoming r → t.feeding = (if kept r = .empty then rest else kept r) ∧ steady t) ∧
      (rest = .empty →
        (wanted ≠ .empty → t.feeding = wanted ∧ steady t) ∧
        (wanted = .empty → ∀ y, best y → t.feeding = .single (packSource y) ∧ steady t) ∧
        (wanted = .empty → none' → t.feeding = .empty ∧ t.path = { s.path with mode := .brownout, transfer := none, measured := 0 } ∧
          t.lines.pfw = true ∧ t.attnBit .brownout = true ∧ Report.recompute ∈ t.reports)) ∧
      ∀ y, x = packSource y →
        ((s.source x).above = true →
          ∃ u : State, exec (.comparatorTrip x false) s = .next (State.commit s (u.rescue x)) ∧
            u = { s.setSource x { s.source x with above := false } with attn := u.attn }) ∧
        (s.bayLost y = t ∧ s.take (.sourceLost y) = t ∧ s.take (.evaluate false) = s.evaluate false)
end

