-- ==== Sys2Proof/Laws/Still.lean ====
section
/-! SUPPORT. What the operations leave alone: `still` of the state after an operation is `still` of the state before it. -/

namespace Sys2Proof.Machine

/-! ### Plain updates -/

@[simp] theorem still_raise (s : State) (b : AttnBit) : (s.raise b).still = s.still := rfl
@[simp] theorem still_raiseIf (s : State) (c : Bool) (b : AttnBit) : (s.raiseIf c b).still = s.still := by
  cases c <;> rfl
@[simp] theorem still_report (s : State) (r : Report) : (s.report r).still = s.still := rfl
@[simp] theorem still_reportFirst (s : State) (r : Report) : (s.reportFirst r).still = s.still := rfl
@[simp] theorem still_nextTurn (s : State) : s.nextTurn.still = s.still := rfl
@[simp] theorem still_write (s : State) (a : Nat) (bs : List Byte) : (s.write a bs).still = s.still := rfl
@[simp] theorem still_rewrite (s : State) (a : Nat) (bs : List Byte) : (s.rewrite a bs).still = s.still := rfl
@[simp] theorem still_rewritePower (s : State) : s.rewritePower.still = s.still := rfl
@[simp] theorem still_rewriteLight (s : State) : s.rewriteLight.still = s.still := rfl
@[simp] theorem still_rewriteMotion (s : State) : s.rewriteMotion.still = s.still := rfl
@[simp] theorem still_rewriteThermal (s : State) : s.rewriteThermal.still = s.still := rfl
@[simp] theorem still_rewriteBudget (s : State) : s.rewriteBudget.still = s.still := rfl
@[simp] theorem still_writeWalker (s : State) : s.writeWalker.still = s.still := rfl
@[simp] theorem still_modEntry (s : State) (i : Nat) (f : Entry → Entry) : (s.modEntry i f).still = s.still := rfl
@[simp] theorem still_setResource (s : State) (n : ResourceName) (r : Resource) : (s.setResource n r).still = s.still := by
  cases n <;> rfl
@[simp] theorem still_publishPower (old s : State) : (publishPower old s).still = s.still := by
  unfold publishPower; split <;> rfl
@[simp] theorem still_publishBacklight (old : Bld) (s : State) : (State.publishBacklight old s).still = s.still := by
  unfold State.publishBacklight; split <;> rfl

theorem still_modBay (s : State) (x : Bay) (f : BayRecord → BayRecord) (h : ∀ b, (f b).still = b.still) :
    (s.modBay x f).still = s.still := by
  cases x <;> simp [State.modBay, State.setBayRec, State.still, State.bay, h]

theorem still_modPack (s : State) (x : Bay) (f : PackRecord → PackRecord) (h : ∀ p, (f p).still = p.still) :
    (s.modPack x f).still = s.still := by
  cases x <;> simp [State.modPack, State.setPack, State.still, State.pack, h]

theorem still_modPackSource (s : State) (x : Bay) (f : SourceEntry → SourceEntry) (h : ∀ e, (f e).packStill = e.packStill) :
    (s.modSource (packSource x) f).still = s.still := by
  cases x <;> simp [State.modSource, State.setSource, State.still, State.source, packSource, h]

/-! ### Returns, charger and token, backlight -/

@[simp] theorem still_writeFields (s : State) (slot : BitVec 5) (fs : Fields) : (s.writeFields slot fs).still = s.still := by
  induction fs generalizing s with
  | nil => rfl
  | cons f fs ih => simp [State.writeFields, ih]

@[simp] theorem still_setOwner (s : State) (slot : BitVec 5) (n : Nat) : (s.setOwner slot n).still = s.still := rfl

@[simp] theorem still_cardReturn (s : State) (slot : BitVec 5) (tag : Half) (r : Result) (d : Nat) (fs : Fields) :
    (s.cardReturn slot tag r d fs).still = s.still := by
  simp [State.cardReturn]

@[simp] theorem still_complete (s : State) (n : ResourceName) (r : Result) (d : Nat) (fs : Fields) :
    (s.complete n r d fs).still = s.still := by
  unfold State.complete; split <;> simp

@[simp] theorem still_setToken (s : State) (t : Token) (w : Bool) : (s.setToken t w).still = s.still := by
  unfold State.setToken; split <;> simp <;> rfl

@[simp] theorem still_startSettle (s : State) (k : SettleKind) : (s.startSettle k).still = s.still := rfl

@[simp] theorem still_chgAsk (s : State) : s.chgAsk.still = s.still := by
  unfold State.chgAsk; split <;> simp

@[simp] theorem still_chgRelease (s : State) : s.chgRelease.still = s.still := by
  unfold State.chgRelease; split <;> simp

@[simp] theorem still_settleState (c : Charger) (b : Option Bay) : (c.settleState b).still = c.still := by
  unfold Charger.settleState
  cases b with
  | none => rfl
  | some x => dsimp only; repeat' split
              all_goals rfl

theorem still_setChg (s : State) (c : Charger) (h : c.still = s.chg.still) : ({ s with chg := c } : State).still = s.still := by
  simp [State.still, h]

@[simp] theorem still_chgRequest (old : Charger) (s : State) : (State.chgRequest old s).still = s.still := by
  unfold State.chgRequest; split <;> simp

@[simp] theorem still_chgClaim (had : Bool) (s : State) : (State.chgClaim had s).still = s.still := by
  unfold State.chgClaim; split
  · simp
  · split
    · rw [still_chgRelease]; rfl
    · rfl

@[simp] theorem still_chgStopped (old : Charger) (s : State) (x : Bay) : (State.chgStopped old s x).still = s.still := by
  unfold State.chgStopped; split <;> simp

@[simp] theorem still_chgEvaluate (s : State) : s.chgEvaluate.still = s.still := by
  unfold State.chgEvaluate
  simp only [still_chgStopped, still_chgRequest, still_chgClaim]
  exact still_setChg s _ (still_settleState _ _)

@[simp] theorem still_chgTokenArrived (s : State) : s.chgTokenArrived.still = s.still := by simp [State.chgTokenArrived]

@[simp] theorem still_chgTokenTaken (s : State) : s.chgTokenTaken.still = s.still := by
  simp only [State.chgTokenTaken, still_chgEvaluate, still_startSettle]; rfl

@[simp] theorem still_chgInterlock (s : State) (x : Bay) : (s.chgInterlock x).still = s.still := by
  simp only [State.chgInterlock, still_chgEvaluate]; rfl

@[simp] theorem still_chgFeeding (s : State) : s.chgFeeding.still = s.still := by
  simp only [State.chgFeeding, still_chgEvaluate]; rfl

@[simp] theorem still_chgGrant (s : State) (g : Nat) (e : EntryState) : (s.chgGrant g e).still = s.still := by
  simp only [State.chgGrant, still_chgEvaluate]; rfl

@[simp] theorem still_chgRisen (s : State) : s.chgRisen.still = s.still := by
  simp only [State.chgRisen, still_chgEvaluate]; rfl

@[simp] theorem still_chgFallen (s : State) : s.chgFallen.still = s.still := by
  simp only [State.chgFallen]; split
  · rw [still_setToken]; rfl
  all_goals rfl

@[simp] theorem still_bldAsk (s : State) : s.bldAsk.still = s.still := by
  unfold State.bldAsk; split <;> simp

@[simp] theorem still_passToken (s : State) : s.passToken.still = s.still := by
  unfold State.passToken; split <;> simp

@[simp] theorem still_bldRelease (s : State) : s.bldRelease.still = s.still := by
  unfold State.bldRelease; split <;> simp

theorem still_setBld (s : State) (b : Bld) (h : b.still = s.bld.still) : ({ s with bld := b } : State).still = s.still := by
  simp [State.still, h]

@[simp] theorem still_figures (b : Bld) (active : Bool) : (b.figures active).still = b.still := rfl
@[simp] theorem still_cut (b : Bld) : b.cut.still = b.still := rfl

@[simp] theorem still_bldWant (s : State) : s.bldWant.still = s.still := by
  simp only [State.bldWant]
  repeat' split
  all_goals first
    | rfl
    | (simp only [still_bldAsk, still_bldRelease]; rfl)

@[simp] theorem still_bldRequest (s : State) : s.bldRequest.still = s.still := by
  simp only [State.bldRequest]
  repeat' split
  all_goals rfl

/-- A derivation whose event installs nothing that is still. -/
theorem still_derive (s : State) (f : Bld → Bld) (h : (f s.bld).still = s.bld.still) : (s.derive f).still = s.still := by
  simp only [State.derive, still_publishBacklight]
  rw [still_setBld _ _ (still_cut _), still_bldRequest, still_bldWant]
  exact still_setBld s _ (by rw [still_figures, h])

@[simp] theorem still_deriveToken (s : State) : s.deriveToken.still = s.still := still_derive s _ rfl
@[simp] theorem still_bldGrant (s : State) (g : Nat) (e : EntryState) : (s.bldGrant g e).still = s.still := still_derive s _ rfl

/-! ### Bays and packs, as the reports reach them -/

@[simp] theorem still_beginPoll (s : State) (x : Bay) : (s.beginPoll x).still = s.still :=
  still_modPack s x _ (fun _ => rfl)

@[simp] theorem still_forcedPoll (s : State) (x : Bay) : (s.forcedPoll x).still = s.still := by
  unfold State.forcedPoll
  split
  · exact still_modPack s x _ (fun _ => rfl)
  · split <;> simp

@[simp] theorem still_mirror (s : State) (x : Bay) : (s.mirror x).still = s.still := by
  simp only [State.mirror]; split
  · rfl
  · rw [still_raise]; exact still_modPackSource s x _ (fun _ => rfl)

@[simp] theorem still_enterBay (s : State) (x : Bay) (st : BayState) (a : Bool) : (s.enterBay x st a).still = s.still := by
  simp only [State.enterBay, still_report, still_chgEvaluate, still_raiseIf, still_mirror]
  exact still_modBay s x _ (fun _ => rfl)

@[simp] theorem still_lockAsk (s : State) (x : Bay) (n : Nat) : (s.lockAsk x n).still = s.still := by
  unfold State.lockAsk; split <;> simp

@[simp] theorem still_endRequest (s : State) (x : Bay) (o : Origin) (r : Result) (d : Nat) :
    (s.endRequest x o r d).still = s.still := by
  simp only [State.endRequest]
  cases o <;> simp only [still_raiseIf, still_complete] <;> exact still_modBay s x _ (fun _ => rfl)

@[simp] theorem still_endPreparing (s : State) (x : Bay) (r : Result) (d : Nat) : (s.endPreparing x r d).still = s.still := by
  simp only [State.endPreparing]
  split
  · rw [still_endRequest]; exact still_modBay s x _ (fun _ => rfl)
  · exact still_modBay s x _ (fun _ => rfl)

@[simp] theorem still_dropProjection (s : State) (x : Bay) : (s.dropProjection x).still = s.still := by
  unfold State.dropProjection
  split
  · split
    · rfl
    · rfl
  · rfl

@[simp] theorem still_leaveRelease (s : State) (x : Bay) (st : BayState) : (s.leaveRelease x st).still = s.still := by
  unfold State.leaveRelease State.dropClaims
  repeat' split
  all_goals simp

@[simp] theorem still_abandonRelease (s : State) (x : Bay) (st : BayState) (r : Result) (d : Nat) :
    (s.abandonRelease x st r d).still = s.still := by simp [State.abandonRelease]

@[simp] theorem still_startWindow (s : State) (x : Bay) : (s.startWindow x).still = s.still :=
  still_modBay s x _ (fun _ => rfl)

@[simp] theorem still_bayTest (s : State) (x : Bay) : (s.bayTest x).still = s.still := by
  unfold State.bayTest; split <;> simp

@[simp] theorem still_closeWindow (s : State) (x : Bay) : (s.closeWindow x).still = s.still := by
  simp only [State.closeWindow]
  split <;> simp only [still_forcedPoll, still_enterBay, still_lockAsk] <;> exact still_modBay s x _ (fun _ => rfl)

@[simp] theorem still_endWindow (s : State) (x : Bay) : (s.endWindow x).still = s.still := by
  unfold State.endWindow; split
  · simp
  · exact still_modBay s x _ (fun _ => rfl)

@[simp] theorem still_takeLockGrant (s : State) (x : Bay) (g : Nat) : (s.takeLockGrant x g).still = s.still := by
  unfold State.takeLockGrant
  split <;> try split
  all_goals simp

/-! ### Budget -/

@[simp] theorem still_handLock (old : Budget) (s : State) (x : Bay) : (State.handLock old s x).still = s.still := by
  simp only [State.handLock]; split <;> simp

@[simp] theorem still_handBacklight (s : State) (e : Entry) : (s.handBacklight e).still = s.still := by
  unfold State.handBacklight; split <;> simp

@[simp] theorem still_handCharger (s : State) (e : Entry) : (s.handCharger e).still = s.still := by
  unfold State.handCharger; split <;> simp

@[simp] theorem still_installTable (s : State) (c : Nat) (t : SourceSet) (h : Nat) (es : List Entry) :
    (s.installTable c t h es).still = s.still := by
  simp only [State.installTable, still_handCharger, still_handBacklight, still_handLock, still_raiseIf, still_rewriteBudget]
  rfl

@[simp] theorem still_writeLimits (s : State) : s.writeLimits.still = s.still := rfl

@[simp] theorem still_computeTable (s : State) : s.computeTable.still = s.still := by simp [State.computeTable]

@[simp] theorem still_keepTest (s : State) (v : Verdict) : (s.keepTest v).still = s.still := rfl

@[simp] theorem still_recheck (s : State) (x : Bay) : (s.recheck x).still = s.still := by
  simp only [State.recheck]
  split
  · simp only [still_report, still_computeTable]; rfl
  · simp

@[simp] theorem still_recompute (s : State) (f : Bool) : (s.recompute f).still = s.still := by
  unfold State.recompute
  split
  · split <;> simp
  · simp

/-! ### Path -/

@[simp] theorem still_setSwitches (s : State) (f : SourceSet) : (s.setSwitches f).still = s.still := rfl

@[simp] theorem still_reportFeeding (s : State) : s.reportFeeding.still = s.still := by
  unfold State.reportFeeding
  repeat' split
  all_goals simp

@[simp] theorem still_feedingChanged (old : SourceSet) (s : State) : (State.feedingChanged old s).still = s.still := by
  unfold State.feedingChanged; split <;> simp

@[simp] theorem still_interlock (s : State) (t : SourceSet) : (s.interlock t).still = s.still := by
  simp only [State.interlock]
  repeat' split
  all_goals simp

@[simp] theorem still_setPath (s : State) (m : PathMode) (t : Option Transfer) : (s.setPath m t).still = s.still := by
  simp only [State.setPath, still_raiseIf]; rfl

@[simp] theorem still_plan (s : State) (p : Bool) : (s.plan p).still = s.still := by
  simp only [State.plan]; split <;> simp

@[simp] theorem still_preferredMoved (s : State) : s.preferredMoved.still = s.still := by
  unfold State.preferredMoved; split <;> simp

@[simp] theorem still_evaluate (s : State) (p : Bool) : (s.evaluate p).still = s.still := by
  simp only [State.evaluate]
  repeat' split
  all_goals simp

@[simp] theorem still_enterBrownout (s : State) : s.enterBrownout.still = s.still := by
  simp only [State.enterBrownout, still_report, still_raise, still_setPath]; rfl

@[simp] theorem still_rescueTo (s : State) (t : Option Transfer) (f : SourceSet) : (s.rescueTo t f).still = s.still := by
  simp only [State.rescueTo]
  repeat' split
  all_goals simp

@[simp] theorem still_rescue (s : State) (x : Source) : (s.rescue x).still = s.still := by
  simp only [State.rescue]; split <;> simp

@[simp] theorem still_bayLost (s : State) (x : Bay) : (s.bayLost x).still = s.still := by
  unfold State.bayLost; split <;> simp

@[simp] theorem still_breakTransfer (s : State) (t : Transfer) : (s.breakTransfer t).still = s.still := by
  simp [State.breakTransfer]

/-! ### The reports -/

/-- No report changes the still part of a state. -/
@[simp] theorem still_take (s : State) (r : Report) : (s.take r).still = s.still := by
  cases r <;> simp [State.take]

theorem still_drain (n : Nat) (s : State) : (s.drain n).still = s.still := by
  induction n generalizing s with
  | zero => rfl
  | succ n ih =>
    unfold State.drain
    split
    · rfl
    · rw [ih, still_take]; rfl

@[simp] theorem still_settle (s : State) : s.settle.still = s.still := still_drain _ _

@[simp] theorem still_commit (old s : State) : (State.commit old s).still = s.still := by simp [State.commit]

end Sys2Proof.Machine
end

