-- ==== Sys2Proof/Laws/Keeps.lean ====
section
/-! SUPPORT. One rule for every property that the operations keep. `Calm`, `Core` and `Keeps` list the primitive changes of a state; a property
that each of them keeps is kept by every operation, by the taking of the reports and by the end of a step. `A` says which bays the
primitive changes of a bay may concern. -/

namespace Sys2Proof.Machine

/-- The result fields of a card stay within its slot. -/
def Fields.inside (fs : Fields) : Prop := ∀ f ∈ fs, f.1 + f.2.length ≤ 64

/-- An installation that leaves the curve within the twelve points of a page. -/
def CurveKept (f : Bld → Bld) : Prop := ∀ b, b.curve.length ≤ 12 → (f b).curve.length ≤ 12

/-- The state that an entry gives a bay record. -/
def BayRecord.enter (st : BayState) (b : BayRecord) : BayRecord := { b with state := st, lock := st == .released }

/-- A property that the primitive changes of the budget, the charger, the packs and the pages keep. -/
structure Calm (P : State → Prop) : Prop where
  reports : ∀ {s} (r : List Report), P s → P { s with reports := r }
  turn : ∀ {s} (n : Nat), P s → P { s with turn := n }
  raise : ∀ {s} (b : AttnBit), P s → P (s.raise b)
  power : ∀ {s}, P s → P s.rewritePower
  light : ∀ {s}, P s → P s.rewriteLight
  thermal : ∀ {s}, P s → P s.rewriteThermal
  budgetPage : ∀ {s}, P s → P s.rewriteBudget
  complete : ∀ {s} (n : ResourceName) (r : Result) (d : Nat) {fs : Fields}, fs.inside → P s → P (s.complete n r d fs)
  entry : ∀ {s} (i : Nat) (f : Entry → Entry), i < 4 →
    (∀ e, (f e).grant = e.grant ∧ (f e).priority = e.priority ∧ (f e).kind = e.kind) → P s → P (s.modEntry i f)
  token : ∀ {s} (t : Token) (w : Bool), P s → P { s with budget := { s.budget with token := t, waiting := w } }
  project : ∀ {s} (p : Option Projection), P s → P { s with budget := { s.budget with projection := p } }
  tested : ∀ {s} (v : Verdict), P s → P (s.keepTest v)
  table : ∀ {s} (c : Nat) (t : SourceSet), P s → P { s with budget := { s.budget with
    capacity := c, headroom := c - s.budget.base, entries := grantTable (c - s.budget.base) s.budget.entries, capSet := t } }
  smon : ∀ {s} (m : Smon), P s → P { s with smon := m }
  chg : ∀ {s} (c : Charger), c.powerSound → P s → P { s with chg := c }
  chgAux : ∀ {s} (f : Bool) (x : Option RateSettle) (b : Option Bay), P s →
    P { s with chg := { s.chg with fast := f, settle := x, barred := b } }
  pack : ∀ {s} (x : Bay) (f : PackRecord → PackRecord), P s → P (s.modPack x f)

/-- A property that the primitive changes of a bay keep too. -/
structure Core (P : State → Prop) (A : Bay → Prop) : Prop extends Calm P where
  allow : ∀ {s} {x : Bay}, P s → (s.bay x).state.opening = true → A x
  bay : ∀ {s} (x : Bay) (f : BayRecord → BayRecord), A x → (∀ b, (f b).state = b.state ∧ (f b).lock = b.lock) → P s →
    P (s.modBay x f)
  leave : ∀ {s} (x : Bay) (st : BayState), A x → st.opening = false → P s → P (s.modBay x (BayRecord.enter st))

theorem lockIndex_lt (x : Bay) : lockIndex x < 4 := by cases x <;> decide

namespace Calm

variable {P : State → Prop} {s : State}

theorem report (h : Calm P) (r : Report) (hs : P s) : P (s.report r) := h.reports _ hs

theorem reportFirst (h : Calm P) (r : Report) (hs : P s) : P (s.reportFirst r) := h.reports _ hs

theorem raiseIf (h : Calm P) (c : Bool) (b : AttnBit) (hs : P s) : P (s.raiseIf c b) := by
  unfold State.raiseIf; split
  · exact h.raise b hs
  · exact hs

theorem nextTurn (h : Calm P) (hs : P s) : P s.nextTurn := h.turn _ hs

theorem setToken (h : Calm P) (t : Token) (w : Bool) (hs : P s) : P (s.setToken t w) := by
  unfold State.setToken; split
  · exact hs
  · exact h.report _ (h.budgetPage (h.token t w hs))

theorem startSettle (h : Calm P) (k : SettleKind) (hs : P s) : P (s.startSettle k) := h.chgAux _ _ _ hs

theorem chgAsk (h : Calm P) (hs : P s) : P s.chgAsk := by
  unfold State.chgAsk; split
  · exact h.startSettle _ (h.setToken _ _ hs)
  · exact hs
  · exact h.setToken _ _ hs
  · exact h.setToken _ _ hs

theorem chgRelease (h : Calm P) (hs : P s) : P s.chgRelease := by
  unfold State.chgRelease; split <;> exact h.setToken _ _ hs

theorem settleState_sound (c : Charger) (b : Option Bay) : (c.settleState b).powerSound := by
  unfold Charger.settleState Charger.powerSound
  cases b with
  | none => simp
  | some x =>
    dsimp only
    repeat' split
    all_goals simp
    all_goals omega

theorem chgRequest (h : Calm P) (old : Charger) (hs : P s) : P (State.chgRequest old s) := by
  unfold State.chgRequest; split
  · exact hs
  · exact h.report _ (h.entry _ _ (by decide) (fun _ => ⟨rfl, rfl, rfl⟩) hs)

theorem chgClaim (h : Calm P) (had : Bool) (hs : P s) : P (State.chgClaim had s) := by
  unfold State.chgClaim
  split
  · exact h.chgAsk hs
  · split
    · exact h.chgRelease (h.chgAux s.chg.fast none s.chg.barred hs)
    · exact hs

theorem chgStopped (h : Calm P) (old : Charger) (x : Bay) (hs : P s) : P (State.chgStopped old s x) := by
  unfold State.chgStopped; split
  · exact h.report _ hs
  · exact hs

/-- An evaluation replaces the charger's record by a sound one, whatever the record was before. -/
theorem chgEvaluateFrom (h : Calm P) (c : Charger) (hs : P s) : P ({ s with chg := c } : State).chgEvaluate := by
  unfold State.chgEvaluate
  exact h.chgStopped _ _ (h.chgStopped _ _ (h.chgRequest _ (h.chgClaim _ (h.chg (s := s) _ (settleState_sound _ _) hs))))

theorem chgEvaluate (h : Calm P) (hs : P s) : P s.chgEvaluate := h.chgEvaluateFrom s.chg hs

theorem chgTokenArrived (h : Calm P) (hs : P s) : P s.chgTokenArrived := h.chgEvaluate (h.startSettle _ hs)

theorem chgTokenTaken (h : Calm P) (hs : P s) : P s.chgTokenTaken :=
  h.chgEvaluate (h.startSettle _ (h.chgAux false s.chg.settle s.chg.barred hs))

theorem chgInterlock (h : Calm P) (x : Bay) (hs : P s) : P (s.chgInterlock x) :=
  h.chgEvaluate (h.chgAux s.chg.fast s.chg.settle (some x) hs)

theorem chgFeeding (h : Calm P) (hs : P s) : P s.chgFeeding :=
  h.chgEvaluate (h.chgAux s.chg.fast s.chg.settle none hs)

theorem chgGrant (h : Calm P) (g : Nat) (e : EntryState) (hs : P s) : P (s.chgGrant g e) := h.chgEvaluateFrom _ hs

theorem chgRisen (h : Calm P) (hs : P s) : P s.chgRisen := h.chgEvaluate (h.chgAux _ none s.chg.barred hs)

theorem chgFallen (h : Calm P) (hs : P s) : P s.chgFallen := by
  have h1 := h.chgAux s.chg.fast none s.chg.barred hs
  simp only [State.chgFallen]; split
  · exact h.setToken _ _ h1
  all_goals exact h1

theorem bldAsk (h : Calm P) (hs : P s) : P s.bldAsk := by
  unfold State.bldAsk; split
  · exact h.setToken _ _ hs
  · exact h.chgTokenTaken (h.setToken _ _ hs)
  · exact hs
  · exact hs

theorem passToken (h : Calm P) (hs : P s) : P s.passToken := by
  unfold State.passToken; split
  · exact h.chgTokenArrived (h.setToken _ _ hs)
  · exact h.setToken _ _ hs

theorem bldRelease (h : Calm P) (hs : P s) : P s.bldRelease := by
  unfold State.bldRelease; split
  · exact h.passToken hs
  · exact h.passToken hs
  · exact hs
  · exact hs

/-- A property that lets BLD's record be anything is kept by a derivation. -/
theorem deriveOf (h : Calm P) (hb : ∀ {s : State} (b : Bld), P s → P { s with bld := b }) (f : Bld → Bld) (hs : P s) :
    P (s.derive f) := by
  have hw : ∀ {s : State}, P s → P s.bldWant := by
    intro s hs
    simp only [State.bldWant]
    repeat' split
    all_goals first
      | exact hs
      | exact hb _ hs
      | exact h.bldAsk (hb _ hs)
      | exact h.bldRelease (hb _ hs)
  have hr : ∀ {s : State}, P s → P s.bldRequest := by
    intro s hs
    have he : ∀ r fl, P ((({ s with bld := { s.bld with request := r, floor := fl } } : State).modEntry 2
        (fun e => { e with request := r, floor := fl })).report .recompute) := fun r fl =>
      h.report _ (h.entry _ _ (by decide) (fun _ => ⟨rfl, rfl, rfl⟩) (hb _ hs))
    simp only [State.bldRequest]
    repeat' split
    all_goals first
      | exact hs
      | exact he _ _
  have hp : ∀ {s : State} (o : Bld), P s → P (State.publishBacklight o s) := by
    intro s o hs
    unfold State.publishBacklight; split
    · exact hs
    · exact h.light hs
  exact hp _ (hb _ (hr (hw (hb _ hs))))

/-! ### Bays and packs -/

theorem forcedPoll (h : Calm P) (x : Bay) (hs : P s) : P (s.forcedPoll x) := by
  unfold State.forcedPoll; split
  · exact h.pack x _ hs
  · split
    · exact h.pack x _ hs
    · exact hs

theorem modSource (h : Calm P) (x : Source) (f : SourceEntry → SourceEntry) (hs : P s) : P (s.modSource x f) := by
  cases x <;> exact h.smon _ hs

theorem mirror (h : Calm P) (x : Bay) (hs : P s) : P (s.mirror x) := by
  simp only [State.mirror]; split
  · exact hs
  · exact h.raise _ (h.modSource _ _ hs)

/-- What follows the change of the record when a bay enters a state. -/
theorem entered (h : Calm P) (x : Bay) (st : BayState) (a : Bool) (hs : P (s.modBay x (BayRecord.enter st))) :
    P (s.enterBay x st a) :=
  h.report _ (h.chgEvaluate (h.raiseIf _ _ (h.mirror x hs)))

theorem lockAsk (h : Calm P) (x : Bay) (n : Nat) (hs : P s) : P (s.lockAsk x n) := by
  unfold State.lockAsk; split
  · exact hs
  · exact h.report _ (h.entry _ _ (lockIndex_lt x) (fun _ => ⟨rfl, rfl, rfl⟩) hs)

theorem dropProjection (h : Calm P) (x : Bay) (hs : P s) : P (s.dropProjection x) := by
  unfold State.dropProjection; split
  · split
    · exact h.report _ (h.project none hs)
    · exact hs
  · exact hs

/-! ### The table -/

/-- A property that a derivation keeps is kept by a computation of the table. -/
theorem computeTableOf (h : Calm P) (hd : ∀ {s : State} {f : Bld → Bld}, CurveKept f → P s → P (s.derive f)) (hs : P s) : P s.computeTable := by
  have hl : ∀ {s : State} (old : Budget) (x : Bay), P s → P (State.handLock old s x) := by
    intro s old x hs
    simp only [State.handLock]; split
    · exact hs
    · exact h.report _ hs
  have hb : ∀ {s : State} (e : Entry), P s → P (s.handBacklight e) := by
    intro s e hs
    unfold State.handBacklight; split
    · exact hs
    · exact hd (fun _ hc => hc) hs
  have hc : ∀ {s : State} (e : Entry), P s → P (s.handCharger e) := by
    intro s e hs
    unfold State.handCharger; split
    · exact hs
    · exact h.chgGrant _ _ hs
  unfold State.computeTable State.installTable
  exact hc _ (hb _ (hl _ _ (hl _ _ (h.raiseIf _ _ (h.budgetPage (h.table _ _ (h.smon _ hs)))))))

end Calm

namespace Core

variable {P : State → Prop} {A : Bay → Prop} {s : State}

theorem enterBay (h : Core P A) {x : Bay} {st : BayState} (a : Bool) (hx : A x) (hst : st.opening = false) (hs : P s) :
    P (s.enterBay x st a) :=
  h.entered x st a (h.leave x st hx hst hs)

theorem inside_nil : Fields.inside [] := fun _ hf => absurd hf (by simp)

theorem endRequest (h : Core P A) {x : Bay} (hx : A x) (o : Origin) (r : Result) (d : Nat) (hs : P s) :
    P (s.endRequest x o r d) := by
  have h1 := h.bay x (fun b => { b with outcome := some ⟨o, r, d, s.clock⟩ }) hx (fun _ => ⟨rfl, rfl⟩) hs
  simp only [State.endRequest]
  cases o with
  | button => exact h.raiseIf _ _ h1
  | card n => exact h.complete _ _ _ inside_nil h1

theorem endPreparing (h : Core P A) {x : Bay} (hx : A x) (r : Result) (d : Nat) (hs : P s) : P (s.endPreparing x r d) := by
  have h1 := h.bay x (fun b => { b with prepare := none, request := none }) hx (fun _ => ⟨rfl, rfl⟩) hs
  simp only [State.endPreparing]; split
  · exact h.endRequest hx _ _ _ h1
  · exact h1

theorem leaveRelease (h : Core P A) {x : Bay} {st : BayState} (hx : A x) (hst : st.opening = false) (hs : P s) :
    P (s.leaveRelease x st) := by
  have hd : ∀ {u : State}, P u → P (u.dropClaims x) := fun hu => h.dropProjection x (h.lockAsk x 0 hu)
  unfold State.leaveRelease
  repeat' split
  · exact h.enterBay _ hx hst (hd (h.nextTurn hs))
  · exact hd (h.enterBay _ hx hst (h.nextTurn hs))
  · exact h.enterBay _ hx hst (hd hs)

theorem abandonRelease (h : Core P A) {x : Bay} {st : BayState} (hx : A x) (hst : st.opening = false) (r : Result) (d : Nat)
    (hs : P s) : P (s.abandonRelease x st r d) :=
  h.leaveRelease hx hst (h.endPreparing hx r d hs)

theorem startWindow (h : Core P A) {x : Bay} (hx : A x) (hs : P s) : P (s.startWindow x) :=
  h.bay x _ hx (fun _ => ⟨rfl, rfl⟩) hs

theorem closeWindow (h : Core P A) {x : Bay} (hx : A x) (hs : P s) : P (s.closeWindow x) := by
  have h1 := h.lockAsk x 0 (h.bay x (fun b => { b with window := none, endDeferred := false }) hx (fun _ => ⟨rfl, rfl⟩) hs)
  simp only [State.closeWindow]
  split
  · exact h.forcedPoll x (h.enterBay true hx rfl h1)
  · exact h.enterBay true hx rfl h1

theorem endWindow (h : Core P A) {x : Bay} (hx : A x) (hs : P s) : P (s.endWindow x) := by
  unfold State.endWindow; split
  · exact h.closeWindow hx hs
  · exact h.bay x _ hx (fun _ => ⟨rfl, rfl⟩) hs

end Core

/-! ### What the release keeps of a bay's state -/

@[simp] theorem bay_setResource (s : State) (n : ResourceName) (r : Resource) (y : Bay) :
    (s.setResource n r).bay y = s.bay y := by cases n <;> cases y <;> rfl

@[simp] theorem bay_writeFields (s : State) (slot : BitVec 5) (fs : Fields) (y : Bay) :
    (s.writeFields slot fs).bay y = s.bay y := by
  induction fs generalizing s with
  | nil => rfl
  | cons f fs ih => rw [State.writeFields, ih]; cases y <;> rfl

@[simp] theorem bay_cardReturn (s : State) (slot : BitVec 5) (tag : Half) (r : Result) (d : Nat) (fs : Fields) (y : Bay) :
    (s.cardReturn slot tag r d fs).bay y = s.bay y := by
  have h : ∀ t : State, (s.cardReturn slot tag r d fs).bay y = (((s.write (Mem.slot slot + 4) (u8 r.code ++ u8 d)).writeFields
    slot fs).bay y) := fun _ => by cases y <;> rfl
  rw [h s, bay_writeFields]; cases y <;> rfl

@[simp] theorem bay_complete (s : State) (n : ResourceName) (r : Result) (d : Nat) (fs : Fields) (y : Bay) :
    (s.complete n r d fs).bay y = s.bay y := by
  unfold State.complete; split <;> simp

@[simp] theorem bay_modBay (s : State) (x y : Bay) (f : BayRecord → BayRecord) :
    (s.modBay x f).bay y = if y = x then f (s.bay x) else s.bay y := by
  cases x <;> cases y <;> rfl

@[simp] theorem state_endPreparing (s : State) (x y : Bay) (r : Result) (d : Nat) :
    ((s.endPreparing x r d).bay y).state = (s.bay y).state := by
  have h1 : ∀ t : State, ∀ o, ((t.endRequest x o r d).bay y).state = (t.bay y).state := by
    intro t o
    simp only [State.endRequest]
    cases o
    · have : ∀ u : State, ∀ c b, (u.raiseIf c b).bay y = u.bay y := by intro u c b; cases c <;> cases y <;> rfl
      simp only [this, bay_modBay]; split <;> simp_all
    · simp only [bay_complete, bay_modBay]; split <;> simp_all
  simp only [State.endPreparing]; split
  · rw [h1]; simp only [bay_modBay]; split <;> simp_all
  · simp only [bay_modBay]; split <;> simp_all

@[simp] theorem bay_dropProjection (s : State) (x y : Bay) : (s.dropProjection x).bay y = s.bay y := by
  unfold State.dropProjection; repeat' split
  all_goals cases y <;> rfl

@[simp] theorem state_startWindow (s : State) (x y : Bay) : ((s.startWindow x).bay y).state = (s.bay y).state := by
  simp only [State.startWindow, bay_modBay]; split <;> simp_all

/-- A computation of the table touches no bay. -/
@[simp] theorem bay_computeTable (s : State) (y : Bay) : s.computeTable.bay y = s.bay y := by
  have calm : Calm (fun t => t.bay y = s.bay y) := {
    reports := fun _ h => by cases y <;> exact h
    turn := fun _ h => by cases y <;> exact h
    raise := fun _ h => by cases y <;> exact h
    power := fun h => by cases y <;> exact h
    light := fun h => by cases y <;> exact h
    thermal := fun h => by cases y <;> exact h
    budgetPage := fun h => by cases y <;> exact h
    complete := fun _ _ _ _ _ h => by simpa using h
    entry := fun _ _ _ _ h => by cases y <;> exact h
    token := fun _ _ h => by cases y <;> exact h
    project := fun _ h => by cases y <;> exact h
    tested := fun _ h => by cases y <;> exact h
    table := fun _ _ h => by cases y <;> exact h
    smon := fun _ h => by cases y <;> exact h
    chg := fun _ _ h => by cases y <;> exact h
    chgAux := fun _ _ _ h => by cases y <;> exact h
    pack := fun x _ h => by cases x <;> cases y <;> exact h }
  exact calm.computeTableOf (fun _ ht => calm.deriveOf (fun _ h => by cases y <;> exact h) _ ht) rfl

/-- A property that the primitive changes of the backlight, the release and the path keep too. -/
structure Keeps (P : State → Prop) (A : Bay → Prop) : Prop extends Core P A where
  derive : ∀ {s} {f : Bld → Bld}, CurveKept f → P s → P (s.derive f)
  release : ∀ {s} (x : Bay), (s.bay x).state = .preparing → P s → P (s.modBay x (BayRecord.enter .released))
  steady : ∀ {s}, P s → P (s.setPath .steady none)
  brown : ∀ {s : State}, P s → P (({ s with path := { s.path with measured := 0 } }.setPath .brownout none).raise .brownout)
  make : ∀ {s} (t : Transfer), s.path.holds.isEmpty = true → P s → P (s.setPath .making (some t))
  again : ∀ {s} (t : Transfer), s.path.transfer.isSome = true → P s → P (s.setPath s.path.mode (some t))

namespace Keeps

variable {P : State → Prop} {A : Bay → Prop} {s : State}

theorem deriveToken (h : Keeps P A) (hs : P s) : P s.deriveToken := h.derive (fun _ hc => hc) hs

/-! ### Release, budget -/

theorem bayTest (h : Keeps P A) (x : Bay) (hs : P s) : P (s.bayTest x) := by
  unfold State.bayTest; split
  · rename_i hr
    have hp : (s.bay x).state = .preparing := by
      simp only [State.releaseReady, Bool.and_eq_true, beq_iff_eq] at hr
      exact hr.1.1.1
    have hx : A x := h.allow hs (by rw [hp]; rfl)
    exact h.entered x _ true (h.release x (by simp [hp]) (h.startWindow hx (h.dropProjection x (h.endPreparing hx _ _ hs))))
  · exact hs

theorem takeLockGrant (h : Keeps P A) (x : Bay) (g : Nat) (hs : P s) : P (s.takeLockGrant x g) := by
  unfold State.takeLockGrant
  split
  · exact h.bayTest x hs
  · rename_i hr
    split
    · exact h.endWindow (h.allow hs (by rw [hr]; rfl)) hs
    · exact hs
  all_goals exact hs

theorem computeTable (h : Keeps P A) (hs : P s) : P s.computeTable := h.computeTableOf h.derive hs

theorem preparing_state {x : Bay} (hp : s.preparing = some x) : (s.bay x).state = .preparing := by
  unfold State.preparing at hp
  split at hp
  · cases hp; simp_all
  · split at hp
    · cases hp; simp_all
    · cases hp

theorem recheck (h : Keeps P A) {x : Bay} (hx : A x) (hs : P s) : P (s.recheck x) := by
  simp only [State.recheck]; split
  · exact h.report _ (h.computeTable (h.project _ (h.tested _ hs)))
  · exact h.computeTable (h.abandonRelease hx rfl _ _ (h.tested _ hs))

theorem recompute (h : Keeps P A) (f : Bool) (hs : P s) : P (s.recompute f) := by
  unfold State.recompute; split
  · rename_i x hp
    split
    · exact h.recheck (h.allow hs (by rw [preparing_state hp]; rfl)) hs
    · exact h.computeTable hs
  · exact h.computeTable hs

/-! ### Path -/

theorem setSwitches (h : Keeps P A) (f : SourceSet) (hs : P s) : P (s.setSwitches f) := h.smon _ hs

theorem reportFeeding (h : Keeps P A) (hs : P s) : P s.reportFeeding := by
  unfold State.reportFeeding
  repeat' split
  · exact h.report _ (h.report _ (h.nextTurn hs))
  · exact h.report _ (h.reportFirst _ (h.nextTurn hs))
  · exact h.report _ (h.report _ hs)
  · exact h.report _ hs

theorem feedingChanged (h : Keeps P A) (old : SourceSet) (hs : P s) : P (State.feedingChanged old s) := by
  unfold State.feedingChanged; split
  · exact hs
  · exact h.reportFeeding (h.chgFeeding (h.raise _ hs))

theorem interlock (h : Keeps P A) (t : SourceSet) (hs : P s) : P (s.interlock t) := by
  have h1 : P (if t.packA then s.chgInterlock .a else s) := by
    split
    · exact h.chgInterlock _ hs
    · exact hs
  simp only [State.interlock]; split
  · exact h.chgInterlock _ h1
  · exact h1

/-- The path of a state is that of its still part, but for the path state and the record. -/
theorem holds_of_still {t : State} (he : s.still = t.still) : s.path.holds = t.path.holds := by
  have h := congrArg (fun u : State => u.path.holds) he
  exact h

theorem plan (h : Keeps P A) (p : Bool) (hh : s.path.holds.isEmpty = true) (hs : P s) : P (s.plan p) := by
  simp only [State.plan]; split
  · exact h.feedingChanged _ (h.setSwitches _ hs)
  · refine h.feedingChanged _ (h.make _ ?_ (h.setSwitches _ (h.interlock _ hs)))
    rw [holds_of_still (t := s) (by simp)]; exact hh

theorem preferredMoved (h : Keeps P A) (hs : P s) : P s.preferredMoved := by
  unfold State.preferredMoved; split
  · exact h.report _ hs
  · exact hs

theorem evaluate (h : Keeps P A) (p : Bool) (hs : P s) : P (s.evaluate p) := by
  have h1 := h.preferredMoved hs
  simp only [State.evaluate]; split
  · split
    · rename_i hd
      refine h.plan _ ?_ h1
      simp only [State.planDue, Bool.and_eq_true] at hd
      exact hd.1.1
    · exact h1
  · exact h1
  · exact h1
  · split
    · exact h1
    · exact h.report _ (h.feedingChanged _ (h.steady (h.setSwitches _ (h.interlock _ h1))))

theorem enterBrownout (h : Keeps P A) (hs : P s) : P s.enterBrownout := h.report _ (h.brown hs)

theorem rescueTo (h : Keeps P A) (t : Option Transfer) (f : SourceSet) (ht : t.isSome = true → s.path.transfer.isSome = true)
    (hs : P s) : P (s.rescueTo t f) := by
  have h1 := h.setSwitches f hs
  have h2 : ∀ {u : State}, P u → P (if f.isEmpty then
      if u.replacement.isEmpty then State.feedingChanged s.feeding ((u.setPath .steady none).enterBrownout)
      else (State.feedingChanged s.feeding (((u.interlock u.replacement).setSwitches u.replacement).setPath .steady none)).report
        (.evaluate false)
    else if t.isSome then State.feedingChanged s.feeding u
      else (State.feedingChanged s.feeding u).report (.evaluate false)) := by
    intro u hu
    split
    · split
      · exact h.feedingChanged _ (h.enterBrownout (h.steady hu))
      · exact h.report _ (h.feedingChanged _ (h.steady (h.setSwitches _ (h.interlock _ hu))))
    · split
      · exact h.feedingChanged _ hu
      · exact h.report _ (h.feedingChanged _ hu)
  cases t with
  | none => exact h2 (h.steady h1)
  | some r => exact h2 (h.again (s := s.setSwitches f) r (ht rfl) h1)

theorem rescue (h : Keeps P A) (x : Source) (hs : P s) : P (s.rescue x) := by
  simp only [State.rescue]; split
  · rename_i t ht
    exact h.rescueTo _ _ (fun _ => by rw [ht]; rfl) hs
  · exact h.rescueTo _ _ (fun hn => by cases hn) hs

theorem bayLost (h : Keeps P A) (x : Bay) (hs : P s) : P (s.bayLost x) := by
  unfold State.bayLost; split
  · exact h.rescue _ hs
  · exact h.evaluate _ hs

theorem breakTransfer (h : Keeps P A) (t : Transfer) (hs : P s) : P (s.breakTransfer t) :=
  h.report _ (h.feedingChanged _ (h.steady (h.setSwitches _ hs)))

/-! ### The reports and the end of a step -/

theorem take (h : Keeps P A) (r : Report) (hs : P s) : P (s.take r) := by
  cases r with
  | evaluate p => exact h.evaluate p hs
  | sourceLost x => exact h.bayLost x hs
  | recompute => exact h.recompute false hs
  | derive => exact h.deriveToken hs
  | bayTest x => exact h.bayTest x hs
  | lockGrant x g => exact h.takeLockGrant x g hs

theorem drain (h : Keeps P A) (n : Nat) (hs : P s) : P (s.drain n) := by
  induction n generalizing s with
  | zero => exact hs
  | succ n ih =>
    unfold State.drain; split
    · exact hs
    · exact ih (h.take _ (h.reports _ hs))

/-- The taking of the reports keeps the property. -/
theorem settle (h : Keeps P A) (hs : P s) : P s.settle := h.drain _ hs

theorem publish (h : Keeps P A) (old : State) (hs : P s) : P (publishPower old s) := by
  unfold publishPower; split
  · exact hs
  · exact h.power hs

/-- The end of a step keeps the property. -/
theorem commit (h : Keeps P A) (old : State) (hs : P s) : P (State.commit old s) := h.publish _ (h.settle hs)

end Keeps

end Sys2Proof.Machine
end

