-- ==== Sys2Proof/Laws/Commands.lean ====
section
/-! SUPPORT. The rule of Keeps.lean carried on to the commands: a property that keeps to `Whole` is kept by every command but a memory
write of the host and a power-on reset, and it holds after a power-on reset where it holds of the reset values. `B` says which card slots
may be returned. -/

namespace Sys2Proof.Machine

/-- The hold set without one hold. -/
def State.unheld (s : State) (k : HoldKind) (t : Option Timer) : State :=
  { s with path := { s.path with holds := s.path.holds.put k false, postImpact := t } }

/-- The removal of a hold empties the hold set. -/
def State.empties (s : State) (k : HoldKind) : Bool := (s.path.holds.put k false).isEmpty && !s.path.holds.isEmpty

/-- A property that the changes which the commands make directly keep too. -/
structure Whole (P : State → Prop) (A : Bay → Prop) (B : BitVec 5 → Prop) : Prop extends Keeps P A where
  anyBay : ∀ x, A x
  pathSet : ∀ {s} (m : Nat) (d : DischargeMode) (r : Nat), P s →
    P { s with path := { s.path with measured := m, discharge := d, reserve := r } }
  place : ∀ {s} {k : HoldKind}, k ≠ .freefall → P s → P (s.placeHold k)
  unhold : ∀ {s} {k : HoldKind} (t : Option Timer), k ≠ .freefall →
    (s.empties k = true → s.path.mode = .paused → s.path.transfer = none) → P s → P (s.unheld k t)
  remake : ∀ {s} {k : HoldKind} (u : Option Timer) (t : Transfer), k ≠ .freefall → s.empties k = true →
    s.path.mode = .paused → s.path.transfer.isSome = true → P s → P ((s.unheld k u).setPath .making (some t))
  gauges : ∀ {s} (i r : Nat), P s → P { s with glu := { s.glu with pollInterval := i, retryLimit := r } }
  window : ∀ {s} (w : Nat), P s → P { s with bayc := { s.bayc with window := w } }
  prepare : ∀ {s} {x : Bay} (f : BayRecord → BayRecord), (s.bay x).state = .seated →
    (s.bay (otherBay x)).state.opening = false → (∀ b, (f b).state = .preparing ∧ (f b).lock = b.lock) → P s → P (s.modBay x f)
  stay : ∀ {s} {x : Bay}, (s.bay x).state = .preparing → P s → P (s.modBay x (BayRecord.enter .preparing))
  openBay : ∀ {s} {x : Bay}, (s.bay (otherBay x)).state.opening = false → P s → P (s.modBay x (BayRecord.enter .released))
  load : ∀ {s} (i p r f : Nat), 4 ≤ i → i < 12 → p ≤ 6 → f ≤ r → P s →
    P (s.modEntry i (fun e => { e with priority := p, request := r, floor := f }))
  margins : ∀ {s} (m w : Nat), P s → P { s with budget := { s.budget with margin := m, swapMargin := w } }
  base : ∀ {s} (b : Nat), P s → P (({ s with budget := { s.budget with base := b } } : State).recompute false)
  zones : ∀ {s} (t : Therm), P s → P ((({ s with therm := t } : State).rewriteThermal).thermalBits s.therm)
  als : ∀ {s} (l : Als), (l.fault = true → s.als.fault = true) → P s → P { s with als := l }
  alsFault : ∀ {s}, P s → P s.lightFault
  bldAux : ∀ {s} (c : Bool) (r : Option Timer) (d : Nat), P s →
    P { s with bld := { s.bld with claim := c, release := r, delay := d } }
  rise : ∀ {s}, P s → P { s with bld := s.bld.riseDuty }
  motSet : ∀ {s} (a b c : Nat) (p r : Bool), P s → P { s with mot := { s.mot with
    ffThreshold := a, ffCount := b, impThreshold := c, parkOnShock := p, autoRelease := r } }
  reading : ∀ {s} (r : Bool) (t : Option Timer), P s → P { s with mot := { s.mot with reading := r, stallTimer := t } }
  motionRead : ∀ {s} (q : Byte) (x y z : Half), P s → P (s.motionRead q x y z)
  motionStall : ∀ {s}, P s → P s.motionStall
  parkKeep : ∀ {s} (p : Park), p.latch = s.park.latch → (s.park.req = true → p.req = true) → P s → P { s with park := p }
  parkLet : ∀ {s} (p : Park), p.latch = false → s.mot.detector ≠ .falling → P s → P { s with park := p }
  rules : ∀ {s} (k : Nat) (r : ClassRule), P s → P { s with icl := s.icl.setRule k r }
  walk : ∀ {s} (w : Walker), w.bayA = s.walk.bayA → w.bayB = s.walk.bayB → w.park = s.walk.park → P s → P { s with walk := w }
  slot : ∀ {s} {n : BitVec 5}, s.takeable n = true → P s → B n
  held : ∀ {s} (r : ResourceName) {n : BitVec 5} (t : Half), B n → P s → P (s.setResource r (.held n t))
  owner : ∀ {s} {n : BitVec 5}, B n → P s → P (s.setOwner n 2)
  cardReturn : ∀ {s} {n : BitVec 5} (t : Half) (r : Result) (d : Nat) {fs : Fields}, fs.inside → B n → P s →
    P (s.cardReturn n t r d fs)
  orphan : ∀ {s} (r : ResourceName), P s → P (s.orphan r)
  motionPage : ∀ {s}, P s → P s.rewriteMotion
  walkerPage : ∀ {s}, P s → P s.writeWalker
  platformPage : ∀ {s}, P s → P s.writePlatform
  clockTick : ∀ {s} (c : Clock), P s → P ({ s with clock := c } : State).writeClock
  secondsTick : ∀ {s} (c : Clock), P s → P ({ s with seconds := c } : State).writeSeconds
  psd : ∀ {s} (p : Psd), P s → P { s with psd := p }
  miso : ∀ {s} (l : List Byte), P s → P { s with miso := l }
  attnClear : ∀ {s} (v : Half), P s → P (s.attnClear v)
  mask : ∀ {s} (v : Half), P s → P (s.maskWrite v)
  wipe : ∀ {s}, P s → P { s with attn := { bits := s.levelWord, mask := 0 } }

namespace Whole

variable {P : State → Prop} {A : Bay → Prop} {B : BitVec 5 → Prop} {s : State}

theorem modBay (h : Whole P A B) (x : Bay) {f : BayRecord → BayRecord} (hf : ∀ b, (f b).state = b.state ∧ (f b).lock = b.lock)
    (hs : P s) : P (s.modBay x f) := h.bay x f (h.anyBay x) hf hs

/-! ### Holds, park -/

theorem removeHold (h : Whole P A B) {k : HoldKind} (hk : k ≠ .freefall) (hs : P s) : P (s.removeHold k) := by
  simp only [State.removeHold]
  split
  · rename_i he
    split
    · rename_i t hm ht
      exact h.remake _ _ hk he hm (by rw [ht]; rfl) hs
    · rename_i hn
      refine h.evaluate _ (h.unhold _ hk ?_ hs)
      intro _ hm
      cases ht : s.path.transfer with
      | none => rfl
      | some t => exact absurd ht (hn t hm)
  · rename_i he
    exact h.unhold _ hk (fun h1 => absurd h1 he) hs

theorem setPark (h : Whole P A B) (p : Park) (hp : P { s with park := p }) : P (s.setPark p) := by
  simp only [State.setPark]; split
  · exact hp
  · exact h.motionPage hp

theorem parkRequest (h : Whole P A B) (hs : P s) : P s.parkRequest := by
  unfold State.parkRequest
  repeat' split
  all_goals first
    | exact hs
    | exact h.setPark _ (h.parkKeep _ rfl (fun hr => by simp_all [Park.req]) hs)

theorem parkFields_inside (p : Park) : (parkFields p).inside := by
  intro f hf; simp [parkFields] at hf; rcases hf with rfl | rfl <;> simp [u8, yesNo]

theorem endPark (h : Whole P A B) (r : Result) (hs : P s) : P (s.endPark r) := h.complete _ _ _ (parkFields_inside _) hs

theorem parkAck (h : Whole P A B) (a : Bool) (hs : P s) : P (s.parkAck a) := by
  unfold State.parkAck
  split
  · exact h.endPark _ (h.setPark _ (h.parkKeep _ rfl (fun hr => by simp_all [Park.req]) hs))
  all_goals exact h.setPark _ (h.parkKeep _ rfl (fun hr => by simp_all [Park.req]) hs)

theorem parkTimeout (h : Whole P A B) (hs : P s) : P s.parkTimeout :=
  h.endPark _ (h.raise _ (h.motionPage (h.parkKeep _ rfl (fun hr => hr) hs)))

theorem parkRelease (h : Whole P A B) (hl : s.park.latch = false) (hd : s.mot.detector ≠ .falling) (hs : P s) :
    P s.parkRelease := by
  unfold State.parkRelease; split
  · exact hs
  · exact h.endPark _ (h.setPark _ (h.parkLet _ hl hd hs))

/-! ### Thermal, light -/

theorem tellBld (h : Whole P A B) (t : Therm) (hs : P s) : P (s.tellBld t) := h.derive (fun _ hc => hc) hs

theorem tellChg (h : Whole P A B) (t : Therm) (hs : P s) : P (s.tellChg t) := h.chgEvaluateFrom _ hs

theorem handLevel (h : Whole P A B) (t : Therm) (z : ZoneName) (hs : P s) : P (s.handLevel t z) := by
  cases z with
  | panel => exact h.tellBld t hs
  | charger => exact h.tellChg t hs
  | enclosure =>
    simp only [State.handLevel]
    split
    · exact h.tellChg t (h.tellBld t (h.nextTurn hs))
    · exact h.tellBld t (h.tellChg t (h.nextTurn hs))
  | bayA => exact h.chgEvaluate (h.report _ hs)
  | bayB => exact h.chgEvaluate (h.report _ hs)

theorem thermShow (h : Whole P A B) (t : Therm) (hs : P s) : P (s.thermShow t) := h.zones t hs

theorem zoneInstall (h : Whole P A B) (z : ZoneName) (r : Zone) (hs : P s) : P (s.zoneInstall z r) := by
  simp only [State.zoneInstall]; split
  · exact h.thermShow _ hs
  · exact h.handLevel _ z (h.thermShow _ hs)

theorem thermHand (h : Whole P A B) (x : Bay) (f : Bool) (hs : P s) : P (s.thermHand x f) := h.zoneInstall _ _ hs

theorem handChanges (h : Whole P A B) (new : Therm) (l : List ZoneName) (t : Therm) (hs : P s) : P (State.handChanges new l t s) := by
  induction l generalizing t s with
  | nil => exact hs
  | cons z l ih => exact ih _ (h.settle (h.handLevel _ z hs))

theorem thermSample (h : Whole P A B) (a b c : Int) (hs : P s) : P (s.thermSample a b c) :=
  h.handChanges _ _ _ (h.turn _ (h.thermShow _ hs))

theorem lightComplete (h : Whole P A B) (c i : Nat) (hs : P s) : P (s.lightComplete c i) := by
  simp only [State.lightComplete]
  have h1 : P (s.setAls (fun l => { l.process c i with
      completion := some s.clock, fault := false, faultTimer := some (s.timer Config.lightFault), cycle := some .starting })) :=
    h.als _ (fun hf => by cases hf) hs
  refine h.light ?_
  split
  · exact h1
  · exact h.derive (fun _ hc => hc) h1

theorem lightFailed (h : Whole P A B) (hs : P s) : P s.lightFailed := h.light (h.als _ (fun hf => hf) hs)

theorem lightIdleEnd (h : Whole P A B) (hs : P s) : P s.lightIdleEnd := h.als _ (fun hf => hf) hs

theorem lightTransactionFails (h : Whole P A B) (hs : P s) : P s.lightTransactionFails := by
  unfold State.lightTransactionFails
  split
  · exact h.lightIdleEnd hs
  · split
    · exact h.lightFailed hs
    · exact h.lightFailed hs
    all_goals exact hs

theorem lightRun (h : Whole P A B) (hs : P s) : P s.lightRun := h.light (h.als _ (fun hf => hf) hs)

theorem lightStop (h : Whole P A B) (hs : P s) : P s.lightStop := h.light (h.als _ (fun hf => hf) hs)

/-! ### Backlight -/

theorem bldTimeout (h : Whole P A B) (hs : P s) : P s.bldTimeout := h.derive (fun _ hc => hc) (h.bldRelease (h.bldAux false none s.bld.delay hs))

theorem bldDelay (h : Whole P A B) (d : Nat) (hs : P s) : P (s.bldDelay d) := by
  have h1 := h.bldAux s.bld.claim (s.bld.release.map (Timer.withPeriod (1000 * d))) d hs
  simp only [State.bldDelay]
  split
  · split
    · exact h.bldTimeout h1
    · exact h.derive (fun _ hc => hc) h1
  · exact h.derive (fun _ hc => hc) h1

theorem demandStep_curve : CurveKept Bld.demandStep := by
  intro b hb; unfold Bld.demandStep; split <;> exact hb

theorem slew (h : Whole P A B) (hs : P s) : P s.slew := by
  have h1 := h.rise (h.derive demandStep_curve hs)
  simp only [State.slew]
  split
  · exact h1
  · exact h.light h1

/-! ### Gauges -/

theorem handLink (h : Whole P A B) (x : Bay) (hs : P s) : P (s.handLink x) :=
  h.report _ (h.report _ (h.chgEvaluate (h.thermHand x false hs)))

theorem handSnapshot (h : Whole P A B) (x : Bay) (hs : P s) : P (s.handSnapshot x) :=
  h.report _ (h.report _ (h.chgEvaluate (h.thermHand x true hs)))

theorem handSuspect (h : Whole P A B) (hs : P s) : P s.handSuspect := h.report _ (h.chgEvaluate hs)

theorem markSuspect (h : Whole P A B) (x : Bay) (hs : P s) : P (s.markSuspect x) := by
  simp only [State.markSuspect]
  split
  · exact hs
  · refine h.forcedPoll x ?_
    split
    · exact h.pack x _ hs
    · exact h.handSuspect (h.pack x _ hs)

theorem afterPoll (h : Whole P A B) (x : Bay) (hs : P s) : P (s.afterPoll x) := by
  unfold State.afterPoll
  repeat' split
  all_goals exact h.pack x _ hs

theorem pollGood (h : Whole P A B) (x : Bay) (t : Snapshot) (hs : P s) : P (s.pollGood x t) := by
  simp only [State.pollGood]
  refine h.afterPoll x (h.handSnapshot x ?_)
  split
  · exact h.raiseIf _ _ (h.pack x _ hs)
  · exact h.handLink x (h.raiseIf _ _ (h.pack x _ hs))

theorem pollBad (h : Whole P A B) (x : Bay) (hs : P s) : P (s.pollBad x) := by
  have h1 : ∀ {u : State} (c : Prop) [Decidable c], P u → P (if c then u.chgEvaluate else u.handLink x) := by
    intro u c _ hu
    split
    · exact h.chgEvaluate hu
    · exact h.handLink x hu
  exact h.afterPoll x (h1 _ (h.raiseIf _ _ (h.pack x _ hs)))

theorem resetFields_inside : Fields.inside [(0x0A, u16 0), (0x0C, u8 0), (0x0E, u16 0)] := by
  intro f hf; simp at hf; rcases hf with rfl | rfl | rfl <;> simp [u8, u16]

theorem gluReset (h : Whole P A B) (x : Bay) (hs : P s) : P (s.gluReset x) := by
  have h1 : P (s.setPack x .reset) := h.pack x (fun _ => .reset) hs
  simp only [State.gluReset]
  refine h.handLink x ?_
  split
  · exact h.complete _ _ _ resetFields_inside h1
  · exact h1

theorem gluEmpty (h : Whole P A B) (x : Bay) (hs : P s) : P (s.gluEmpty x) := h.handLink x (h.pack x _ hs)

theorem identFields_inside (i : Identity) : (identFields i).inside := by
  intro f hf; simp [identFields] at hf; rcases hf with rfl | rfl | rfl <;> simp [u8, u16]

theorem installIdentity (h : Whole P A B) (x : Bay) (i : Identity) (m : Bool) (hs : P s) : P (s.installIdentity x i m) := by
  simp only [State.installIdentity]
  have h1 := h.raiseIf ((s.pack x).link == .lost) .packLink (h.pack x (fun p =>
    { p with identity := some i, link := .online, failureRun := 0, suspect := p.suspect && m, op := none }) hs)
  have h2 : P (if (s.pack x).link = .online then (s.modPack x (fun p =>
      { p with identity := some i, link := .online, failureRun := 0, suspect := p.suspect && m, op := none })).raiseIf
        ((s.pack x).link == .lost) .packLink
      else ((s.modPack x (fun p =>
      { p with identity := some i, link := .online, failureRun := 0, suspect := p.suspect && m, op := none })).raiseIf
        ((s.pack x).link == .lost) .packLink).handLink x) := by
    split
    · exact h1
    · exact h.handLink x h1
  split
  · exact h.handSuspect h2
  · exact h2

theorem enter (h : Whole P A B) (x : Bay) {st : BayState} (a : Bool) (hst : st.opening = false) (hs : P s) : P (s.enterBay x st a) :=
  h.enterBay a (h.anyBay x) hst hs

theorem beginPoll (h : Whole P A B) (x : Bay) (hs : P s) : P (s.beginPoll x) := h.pack x _ hs

theorem identBayGood (h : Whole P A B) (x : Bay) (i : Identity) (m : Bool) (hs : P s) : P (s.identBayGood x i m) :=
  h.beginPoll x (h.enter x true rfl (h.installIdentity x i m hs))

theorem identCardGood (h : Whole P A B) (x : Bay) (i : Identity) (m : Bool) (hs : P s) : P (s.identCardGood x i m) := by
  have h1 := h.installIdentity x i m hs
  simp only [State.identCardGood]
  refine h.beginPoll x (h.complete _ _ _ (identFields_inside i) ?_)
  split
  · exact h.enter x true rfl h1
  · exact h1

theorem identBayBad (h : Whole P A B) (x : Bay) (hs : P s) : P (s.identBayBad x) := h.gluEmpty x (h.enter x true rfl hs)

theorem identCardBad (h : Whole P A B) (x : Bay) (d : Nat) (hs : P s) : P (s.identCardBad x d) := by
  simp only [State.identCardBad]
  refine h.complete _ _ _ (identFields_inside _) (h.gluEmpty x ?_)
  split
  · exact hs
  · exact h.enter x true rfl hs

theorem startWaiting (h : Whole P A B) (x : Bay) (hs : P s) : P (s.startWaiting x) := by
  unfold State.startWaiting; split
  · exact h.handLink x (h.pack x _ (h.pack x _ hs))
  · exact hs

theorem abandon (h : Whole P A B) (x : Bay) {st : BayState} (r : Result) (d : Nat) (hst : st.opening = false) (hs : P s) :
    P (s.abandonRelease x st r d) := h.abandonRelease (h.anyBay x) hst r d hs

theorem reidentBad (h : Whole P A B) (x : Bay) (hs : P s) : P (s.reidentBad x) := by
  simp only [State.reidentBad]
  refine h.startWaiting x (h.gluEmpty x ?_)
  split
  · exact hs
  · exact h.abandon x _ _ rfl hs
  · exact hs
  · exact hs
  · exact hs
  · exact h.enter x true rfl hs
  · exact h.enter x true rfl hs

theorem reidentGood (h : Whole P A B) (x : Bay) (o : GaugeOp) (hs : P s) : P (s.reidentGood x o) := by
  simp only [State.reidentGood]
  split
  · exact h.handSuspect (h.pack x _ hs)
  · exact h.pack x _ hs

theorem attemptGood (h : Whole P A B) (x : Bay) (v : Nat) (a : Alarms) (hs : P s) : P (s.attemptGood x v a) := by
  simp only [State.attemptGood]
  repeat' split
  all_goals first
    | exact hs
    | with_reducible exact h.pack x _ hs
    | with_reducible exact h.identBayGood x _ _ hs
    | with_reducible exact h.identBayBad x hs
    | with_reducible exact h.identCardGood x _ _ hs
    | with_reducible exact h.identCardBad x _ hs
    | with_reducible exact h.pollGood x _ hs
    | with_reducible exact h.reidentGood x _ hs
    | with_reducible exact h.reidentBad x hs

theorem attemptBad (h : Whole P A B) (x : Bay) (hs : P s) : P (s.attemptBad x) := by
  simp only [State.attemptBad]
  repeat' split
  all_goals first
    | exact hs
    | with_reducible exact h.pack x _ hs
    | with_reducible exact h.identBayBad x hs
    | with_reducible exact h.identCardBad x _ hs
    | with_reducible exact h.pollBad x hs

/-! ### Bays -/

theorem confirmRemoval (h : Whole P A B) (x : Bay) (hs : P s) : P (s.confirmRemoval x) := by
  simp only [State.confirmRemoval]
  refine h.gluReset x (h.leaveRelease (h.anyBay x) rfl ?_)
  split
  · exact h.endPreparing (h.anyBay x) _ _ (h.modBay x (fun _ => ⟨rfl, rfl⟩) hs)
  · exact h.modBay x (fun _ => ⟨rfl, rfl⟩) hs

theorem enterIdentifying (h : Whole P A B) (x : Bay) (a : Bool) (hs : P s) : P (s.enterIdentifying x a) :=
  h.handLink x (h.pack x _ (h.pack x _ (h.enter x a rfl (h.modBay x (fun _ => ⟨rfl, rfl⟩) hs))))

theorem enterSettling (h : Whole P A B) (x : Bay) (hs : P s) : P (s.enterSettling x) :=
  h.enter x false rfl (h.modBay x (fun _ => ⟨rfl, rfl⟩) hs)

theorem glitch (h : Whole P A B) (x : Bay) (hs : P s) : P (s.glitch x) := h.markSuspect x (h.modBay x (fun _ => ⟨rfl, rfl⟩) hs)

theorem contactOpens (h : Whole P A B) (x : Bay) (hs : P s) : P (s.contactOpens x) := by
  have h1 : P (s.modBay x (fun b => { b with contact := false })) := h.modBay x (fun _ => ⟨rfl, rfl⟩) hs
  simp only [State.contactOpens]
  split
  · exact h1
  · exact h.enter x false rfl (h.modBay x (fun _ => ⟨rfl, rfl⟩) h1)
  all_goals exact h.modBay x (fun _ => ⟨rfl, rfl⟩) h1

theorem recloses (h : Whole P A B) (x : Bay) (hs : P s) : P (s.recloses x) := by
  have h1 : P (s.modBay x (fun b => { b with removal := none })) := h.modBay x (fun _ => ⟨rfl, rfl⟩) hs
  simp only [State.recloses]
  split
  · split
    · exact h.closeWindow (h.anyBay x) h1
    · exact h1
  · exact h.glitch x h1

theorem contactCloses (h : Whole P A B) (x : Bay) (hs : P s) : P (s.contactCloses x) := by
  have h1 : P (s.modBay x (fun b => { b with contact := true })) := h.modBay x (fun _ => ⟨rfl, rfl⟩) hs
  simp only [State.contactCloses]
  split
  · exact h.enterSettling x h1
  · exact h.recloses x h1
  · exact h1

/-! ### The release request -/

/-- A bay that is neither PREPARING nor RELEASED is left so by a recompute. -/
theorem closed_recompute (x : Bay) (f : Bool) (hx : (s.bay x).state.opening = false) : ((s.recompute f).bay x).state.opening = false := by
  have hb : ∀ (t : State) (y : Bay) (g : SourceEntry → SourceEntry) (z : Source), (t.modSource z g).bay y = t.bay y := by
    intro t y g z; cases z <;> cases y <;> rfl
  have core : Core (fun t => (t.bay x).state.opening = false) (fun _ => True) := {
    reports := fun _ h => by cases x <;> exact h
    turn := fun _ h => by cases x <;> exact h
    raise := fun _ h => by cases x <;> exact h
    power := fun h => by cases x <;> exact h
    light := fun h => by cases x <;> exact h
    thermal := fun h => by cases x <;> exact h
    budgetPage := fun h => by cases x <;> exact h
    complete := fun _ _ _ _ _ h => by simpa using h
    entry := fun _ _ _ _ h => by cases x <;> exact h
    token := fun _ _ h => by cases x <;> exact h
    project := fun _ h => by cases x <;> exact h
    tested := fun _ h => by cases x <;> exact h
    table := fun _ _ h => by cases x <;> exact h
    smon := fun _ h => by cases x <;> exact h
    chg := fun _ _ h => by cases x <;> exact h
    chgAux := fun _ _ _ h => by cases x <;> exact h
    allow := fun _ _ => trivial
    bay := fun y f _ hf h => by
      rw [bay_modBay]; split
      · subst_vars; rw [(hf _).1]; exact h
      · exact h
    leave := fun y st _ hst h => by
      rw [bay_modBay]; split
      · exact hst
      · exact h
    pack := fun y _ h => by cases x <;> cases y <;> exact h }
  have hd : ∀ {t : State} (g : Bld → Bld), (t.bay x).state.opening = false → ((t.derive g).bay x).state.opening = false :=
    fun g ht => core.deriveOf (fun _ h => by cases x <;> exact h) g ht
  have hl : ∀ {t : State} (old : Budget) (y : Bay), (t.bay x).state.opening = false →
      ((State.handLock old t y).bay x).state.opening = false := by
    intro t old y ht; simp only [State.handLock]; split
    · exact ht
    · exact core.report _ ht
  have hc : ∀ {t : State}, (t.bay x).state.opening = false → (t.computeTable.bay x).state.opening = false := by
    intro t ht
    unfold State.computeTable State.installTable
    have h1 := hl t.budget .b (hl t.budget .a (core.raiseIf (anyShed t.budget.entries (grantTable (t.capacityOf t.capacitySet - t.budget.base)
      t.budget.entries)) .budgetShed (core.budgetPage (core.table (s := t.writeLimits) (t.capacityOf t.capacitySet) t.capacitySet
      (core.smon _ ht)))))
    have hB : ∀ {u : State} (e : Entry), (u.bay x).state.opening = false → ((u.handBacklight e).bay x).state.opening = false := by
      intro u e hu; unfold State.handBacklight; split
      · exact hu
      · exact hd _ hu
    have hC : ∀ {u : State} (e : Entry), (u.bay x).state.opening = false → ((u.handCharger e).bay x).state.opening = false := by
      intro u e hu; unfold State.handCharger; split
      · exact hu
      · exact core.chgGrant _ _ hu
    exact hC _ (hB _ h1)
  unfold State.recompute
  split
  · split
    · simp only [State.recheck]; split
      · exact core.report _ (hc (core.project _ (core.tested _ hx)))
      · exact hc (core.abandonRelease trivial rfl _ _ (core.tested _ hx))
    · exact hc hx
  · exact hc hx

theorem unpoweredRelease (h : Whole P A B) (x : Bay) (o : Origin) (ho : (s.bay (otherBay x)).state.opening = false) (hs : P s) :
    P (s.unpoweredRelease x o) := by
  have h1 : P ((s.lockNow x).recompute false) := h.recompute _ (h.entry _ _ (lockIndex_lt x) (fun _ => ⟨rfl, rfl, rfl⟩) hs)
  have ho1 : (((s.lockNow x).recompute false).bay (otherBay x)).state.opening = false :=
    closed_recompute _ _ (by cases x <;> exact ho)
  simp only [State.unpoweredRelease]
  split
  · refine h.endRequest (h.anyBay x) _ _ _ (h.entered x _ true (h.openBay (by simpa using ho1) (h.startWindow (h.anyBay x) h1)))
  · exact h.endRequest (h.anyBay x) _ _ _ (h.lockAsk x 0 h1)

theorem beginPreparing (h : Whole P A B) (x : Bay) (o : Origin) (v : Verdict) (hst : (s.bay x).state = .seated)
    (ho : (s.bay (otherBay x)).state.opening = false) (hs : P s) : P (s.beginPreparing x o v) := by
  have h1 := h.prepare (fun b => { b with
    state := .preparing, request := some ⟨o, s.clock⟩, prepare := some (s.timer Config.prepareLimit) }) hst ho
    (fun _ => ⟨rfl, rfl⟩) hs
  simp only [State.beginPreparing]
  refine h.report _ (h.entered x _ true (h.stay ?_ (h.computeTable (h.entry _ _ (lockIndex_lt x) (fun _ => ⟨rfl, rfl, rfl⟩) (h.project _ h1)))))
  rw [bay_computeTable]
  cases x <;> rfl

theorem poweredRelease (h : Whole P A B) (x : Bay) (o : Origin) (hst : (s.bay x).state = .seated)
    (ho : (s.bay (otherBay x)).state.opening = false) (hs : P s) : P (s.poweredRelease x o) := by
  simp only [State.poweredRelease]; split
  · exact h.beginPreparing x o _ (by cases x <;> exact hst) (by cases x <;> exact ho) (h.tested _ hs)
  · exact h.endRequest (h.anyBay x) _ _ _ (h.tested _ hs)

theorem releaseRequest (h : Whole P A B) (x : Bay) (o : Origin) (hs : P s) : P (s.releaseRequest x o) := by
  simp only [State.releaseRequest]
  split
  · exact h.endRequest (h.anyBay x) _ _ _ hs
  · rename_i ho
    have ho : (s.bay (otherBay x)).state.opening = false := by simpa using ho
    repeat' split
    · exact h.endRequest (h.anyBay x) _ _ _ (h.startWindow (h.anyBay x) hs)
    · exact h.endRequest (h.anyBay x) _ _ _ hs
    · exact h.unpoweredRelease x o ho hs
    · exact h.poweredRelease x o (by assumption) ho hs
    · exact h.endRequest (h.anyBay x) _ _ _ hs

theorem debounced (h : Whole P A B) (x : Bay) (hs : P s) : P (s.debounced x) := by
  have h1 : P (s.modBay x (fun b => { b with debounce := none, pressed := b.buttonLine })) :=
    h.modBay x (fun _ => ⟨rfl, rfl⟩) hs
  simp only [State.debounced]; split
  · exact h.releaseRequest x _ h1
  · exact h1

/-! ### Inputs -/

theorem inletPresence (h : Whole P A B) (p : Presence) (t : Option Timer) (c : Option AdapterClass) (hs : P s) :
    P (s.inletPresence p t c) := h.report _ (h.report _ (h.raise _ (h.smon _ hs)))

theorem tripEvent (h : Whole P A B) (x : Source) (a : Bool) (hs : P s) : P (s.tripEvent x a) := by
  have h1 : P ((s.modSource x (fun e => { e with above := a })).raise .sourceChange) := h.raise _ (h.modSource _ _ hs)
  have hr : ∀ {t : State}, P t → P t.inletRises := by
    intro t ht; unfold State.inletRises; split
    · exact h.inletPresence _ _ _ ht
    · exact ht
  have hf : ∀ {t : State}, P t → P t.inletFalls := by
    intro t ht; unfold State.inletFalls; split
    · exact ht
    · exact h.inletPresence _ _ _ ht
  have he : ∀ {t : State}, P t → P (if !a && (s.source x).closed then t.rescue x else t.evaluate false) := by
    intro t ht; split
    · exact h.rescue _ ht
    · exact h.evaluate _ ht
  simp only [State.tripEvent]
  cases x <;> cases a
  · exact he (hf h1)
  · exact he (hr h1)
  all_goals exact he h1

theorem comparatorReads (h : Whole P A B) (x : Source) (a : Bool) (hs : P s) : P (s.comparatorReads x a) := by
  unfold State.comparatorReads; split
  · exact hs
  · exact h.tripEvent x a hs

theorem setTrip (h : Whole P A B) (x : Source) (hi : Bool) (c mv : Nat) (hs : P s) : P (s.setTrip x hi c mv) :=
  h.comparatorReads x _ (h.nextTurn (h.modSource x _ hs))

/-! ### Cards -/

/-- An answer of an owner: the property holds and the result fields stay within the slot. -/
def Good (P : State → Prop) (r : State × Answer) : Prop := P r.1 ∧ r.2.fields.inside

theorem inside_cons {o : Nat} {bs : List Byte} {fs : Fields} (ho : Nat.ble (o + bs.length) 64 = true) (hf : fs.inside) :
    Fields.inside ((o, bs) :: fs) := by
  intro f hm
  cases hm with
  | head => exact Nat.le_of_ble_eq_true ho
  | tail _ hm => exact hf f hm

theorem inside_opt {α : Type} (c : α → Nat) (o : Option α) (k : Fin 63) {fs : Fields} (hf : fs.inside) :
    Fields.inside ((k.val, optCode c o) :: fs) := by
  intro f hm
  cases hm with
  | head => cases o <;> simp [optCode, u8] <;> omega
  | tail _ hm => exact hf f hm

theorem good {r : Result} {d : Nat} {fs : Fields} (hs : P s) (hf : fs.inside) : Good P (s, ⟨r, d, fs⟩) := ⟨hs, hf⟩

theorem good_bad (hs : P s) : Good P (s, badParam) := ⟨hs, Core.inside_nil⟩

theorem immediate (h : Whole P A B) {n : BitVec 5} (t : Half) {r : State × Answer} (hn : B n) (hr : Good P r) :
    P (State.immediate n t r) := h.cardReturn t _ _ hr.2 hn (h.settle hr.1)

theorem cardSetPanel (h : Whole P A B) (n : BitVec 5) (hs : P s) : Good P (s.cardSetPanel n) := by
  simp only [State.cardSetPanel]
  refine good (h.derive (fun _ hc => hc) hs) ?_
  repeat' first | exact Core.inside_nil | refine inside_cons rfl ?_

theorem cardSetCurve (h : Whole P A B) (n : BitVec 5) (hs : P s) : Good P (s.cardSetCurve n) := by
  simp only [State.cardSetCurve]
  split
  · exact good hs Core.inside_nil
  · rename_i hc
    split
    · exact good hs Core.inside_nil
    · refine good (h.derive (fun b _ => ?_) hs) Core.inside_nil
      simp only [State.cardPoints, List.length_map, List.length_range]
      omega

theorem cardSetBrightness (h : Whole P A B) (n : BitVec 5) (hs : P s) : Good P (s.cardSetBrightness n) := by
  simp only [State.cardSetBrightness]
  split
  · exact good_bad hs
  · refine good (h.derive (fun _ hc => hc) hs) ?_
    repeat' first | exact Core.inside_nil | refine inside_cons rfl ?_

theorem cardSetLight (h : Whole P A B) (n : BitVec 5) (hs : P s) : Good P (s.cardSetLight n) := by
  simp only [State.cardSetLight]
  refine good (h.light (h.bldDelay _ (h.als _ (fun hf => hf) hs))) ?_
  repeat' first | exact Core.inside_nil | refine inside_cons rfl ?_

theorem cardSetLoad (h : Whole P A B) (n : BitVec 5) (hs : P s) : Good P (s.cardSetLoad n) := by
  simp only [State.cardSetLoad]
  split
  · exact good_bad hs
  · rename_i hi
    refine good (h.recompute _ (h.load _ _ _ _ (by omega) (by omega) (Nat.min_le_right _ _) (Nat.min_le_right _ _) hs)) ?_
    repeat' first | exact Core.inside_nil | refine inside_cons rfl ?_

theorem cardSetBaseLoad (h : Whole P A B) (n : BitVec 5) (hs : P s) : Good P (s.cardSetBaseLoad n) := by
  simp only [State.cardSetBaseLoad]
  refine good (h.base _ hs) ?_
  repeat' first | exact Core.inside_nil | refine inside_cons rfl ?_

/-- The settings of a SET_POWER_POLICY card. -/
theorem policy (h : Whole P A B) (d : DischargeMode) (r m w sw o : Nat) (hs : P s) : P { s with
    path := { s.path with discharge := d, reserve := r }
    budget := { s.budget with margin := m, swapMargin := w }
    bayc := { s.bayc with window := sw }
    smon := { s.smon with override := o } } := by
  have h1 := h.pathSet s.path.measured d r hs
  have h2 := h.margins m w h1
  have h3 := h.window sw h2
  have h4 := h.smon { s.smon with override := o } h3
  exact h4

theorem policyTaken (h : Whole P A B) (hs : P s) : P s.policyTaken := by
  unfold State.policyTaken; split
  · exact h.evaluate _ (h.recompute _ (h.nextTurn hs))
  · exact h.recompute _ (h.settle (h.evaluate _ (h.nextTurn hs)))

theorem cardSetPowerPolicy (h : Whole P A B) (n : BitVec 5) (hs : P s) : Good P (s.cardSetPowerPolicy n) := by
  simp only [State.cardSetPowerPolicy]
  split
  · exact good_bad hs
  · refine good (h.policyTaken (h.policy _ _ _ _ _ _ hs)) ?_
    repeat' first | exact Core.inside_nil | refine inside_cons rfl ?_

theorem cardSetSourceTrip (h : Whole P A B) (n : BitVec 5) (v : Supply) (hs : P s) : Good P (s.cardSetSourceTrip n v) := by
  simp only [State.cardSetSourceTrip]
  split
  · refine good (h.setTrip _ _ _ _ hs) ?_
    repeat' first | exact Core.inside_nil | refine inside_cons rfl ?_
  · exact good_bad hs

theorem cardSetCharge (h : Whole P A B) (n : BitVec 5) (hs : P s) : Good P (s.cardSetCharge n) := by
  simp only [State.cardSetCharge]
  split
  · refine good (h.chgEvaluateFrom _ hs) ?_
    repeat' first | exact Core.inside_nil | refine inside_cons rfl ?_
    exact inside_opt _ _ 21 (inside_cons rfl Core.inside_nil)
  · exact good_bad hs

theorem cardSetThermal (h : Whole P A B) (n : BitVec 5) (hs : P s) : Good P (s.cardSetThermal n) := by
  simp only [State.cardSetThermal]
  split
  · exact good_bad (h.thermal hs)
  · split
    · refine good (h.zoneInstall _ _ hs) ?_
      repeat' first | exact Core.inside_nil | refine inside_cons rfl ?_
    · exact good_bad (h.thermal hs)

theorem cardSetMotion (h : Whole P A B) (n : BitVec 5) (hs : P s) : Good P (s.cardSetMotion n) := by
  simp only [State.cardSetMotion]
  split
  · refine good (h.motionPage (h.motSet _ _ _ _ _ hs)) ?_
    repeat' first | exact Core.inside_nil | refine inside_cons rfl ?_
  · exact good_bad (h.motionPage hs)

theorem cardSetClassifier (h : Whole P A B) (n : BitVec 5) (hs : P s) : Good P (s.cardSetClassifier n) := by
  simp only [State.cardSetClassifier]
  split
  · split
    · exact good_bad (h.motionPage hs)
    · refine good (h.motionPage (h.rules _ _ hs)) ?_
      repeat' first | exact Core.inside_nil | refine inside_cons rfl ?_
  · exact good_bad (h.motionPage hs)

theorem cardSetHold (h : Whole P A B) (n : BitVec 5) (hs : P s) : Good P (s.cardSetHold n) := by
  simp only [State.cardSetHold]
  split
  · exact good_bad hs
  · refine good ?_ ?_
    · split
      · exact h.place (by decide) hs
      · exact h.removeHold (by decide) hs
    · repeat' first | exact Core.inside_nil | refine inside_cons rfl ?_

theorem newInterval (h : Whole P A B) (x : Bay) (i : Nat) (hs : P s) : P (s.newInterval x i) := by
  unfold State.newInterval
  repeat' split
  · exact hs
  · exact h.beginPoll x hs
  · exact h.pack x _ hs

theorem cardSetGauge (h : Whole P A B) (n : BitVec 5) (hs : P s) : Good P (s.cardSetGauge n) := by
  simp only [State.cardSetGauge]
  refine good (h.newInterval _ _ (h.newInterval _ _ (h.gauges _ _ hs))) ?_
  repeat' first | exact Core.inside_nil | refine inside_cons rfl ?_

theorem cardReleasePark (h : Whole P A B) (hs : P s) : Good P s.cardReleasePark := by
  unfold State.cardReleasePark
  split
  · exact good (h.motionPage hs) (parkFields_inside _)
  · rename_i hd
    have hd : s.mot.detector ≠ .falling := fun he => hd (Or.inl he)
    have h1 : P (s.setPark { s.park with latch := false }) := h.setPark _ (h.parkLet _ rfl hd hs)
    refine good (h.motionPage (h.parkRelease ?_ ?_ h1)) (parkFields_inside _)
    · simp only [State.setPark]; split <;> rfl
    · have : (s.setPark { s.park with latch := false }).mot = s.mot := by simp only [State.setPark]; split <;> rfl
      rw [this]; exact hd

theorem startIdentify (h : Whole P A B) (x : Bay) (hs : P s) : P (s.startIdentify x) := by
  unfold State.startIdentify
  split
  · split
    · exact h.pack x _ hs
    · exact h.pack x _ hs
  · exact h.handLink x (h.pack x _ (h.pack x _ hs))
  · exact h.complete _ _ _ (identFields_inside _) hs

theorem startPark (h : Whole P A B) (hs : P s) : P s.startPark := by
  have h1 := h.motionPage (h.parkRequest hs)
  simp only [State.startPark]; split
  · exact h.endPark _ h1
  · exact h1

/-! ### The walker -/

theorem claim (h : Whole P A B) {n : BitVec 5} (t : Half) (r : ResourceName) {q : State → State} (hn : B n)
    (hq : ∀ {u : State}, P u → P (q u)) (hs : P s) : P (s.claim n t r q) := by
  simp only [State.claim]
  split
  · have h1 := hq (h.held r t hn hs)
    split
    · exact h.owner hn h1
    · exact h1
  · exact h.cardReturn _ _ _ Core.inside_nil hn hs

theorem claimBay (h : Whole P A B) {n : BitVec 5} (t : Half) {q : Bay → State → State} (hn : B n)
    (hq : ∀ (x : Bay) {u : State}, P u → P (q x u)) (hs : P s) : P (s.claimBay n t q) := by
  unfold State.claimBay
  split
  · exact h.claim t _ hn (hq _) hs
  · exact h.cardReturn _ _ _ Core.inside_nil hn hs

theorem workCard (h : Whole P A B) {n : BitVec 5} (v : Supply) (hn : B n) (hs : P s) : P (s.workCard n v) := by
  simp only [State.workCard]
  split
  · exact h.immediate _ hn (h.cardSetPanel n hs)
  · exact h.immediate _ hn (h.cardSetCurve n hs)
  · exact h.immediate _ hn (h.cardSetBrightness n hs)
  · exact h.immediate _ hn (h.cardSetLight n hs)
  · exact h.immediate _ hn (h.cardSetLoad n hs)
  · exact h.immediate _ hn (h.cardSetBaseLoad n hs)
  · exact h.immediate _ hn (h.cardSetPowerPolicy n hs)
  · exact h.immediate _ hn (h.cardSetSourceTrip n v hs)
  · exact h.immediate _ hn (h.cardSetCharge n hs)
  · exact h.immediate _ hn (h.cardSetThermal n hs)
  · exact h.immediate _ hn (h.cardSetMotion n hs)
  · exact h.immediate _ hn (h.cardSetClassifier n hs)
  · exact h.immediate _ hn (h.cardSetHold n hs)
  · exact h.immediate _ hn (h.cardSetGauge n hs)
  · exact h.claimBay _ hn (fun x => h.releaseRequest x _) hs
  · exact h.claimBay _ hn (fun x => h.startIdentify x) hs
  · split
    · exact h.claim _ _ hn h.startPark hs
    · exact h.cardReturn _ _ _ Core.inside_nil hn (h.motionPage hs)
  · split
    · exact h.immediate _ hn (h.cardReleasePark hs)
    · exact h.cardReturn _ _ _ Core.inside_nil hn (h.motionPage hs)
  · exact h.cardReturn _ _ _ Core.inside_nil hn hs

theorem enterWaiting (h : Whole P A B) (hs : P s) : P s.enterWaiting :=
  h.raiseIf _ _ (h.walkerPage (h.walk _ rfl rfl rfl hs))

theorem look (h : Whole P A B) (hs : P s) : P s.look := by
  unfold State.look; split
  · exact h.walkerPage hs
  · exact h.enterWaiting hs

theorem takeOne (h : Whole P A B) (v : Supply) (hn : B s.walk.index) (hs : P s) : P (s.takeOne v) := by
  simp only [State.takeOne]
  exact h.look (h.walk _ rfl rfl rfl (h.workCard v hn (h.walk _ rfl rfl rfl hs)))

theorem enterRunning (h : Whole P A B) (hs : P s) : P s.enterRunning := h.walkerPage (h.walk _ rfl rfl rfl hs)

theorem runningTake (h : Whole P A B) (v : Supply) {u : State} (hi : u.walk.index = s.walk.index)
    (ht : s.takeable s.walk.index = true) (hs : P s) (hu : P u) : P (u.enterRunning.takeOne v) := by
  refine h.takeOne v ?_ (h.enterRunning hu)
  have : u.enterRunning.walk.index = s.walk.index := hi
  rw [this]; exact h.slot ht hs

theorem nudge (h : Whole P A B) (v : Supply) (hs : P s) : P (s.nudge v) := by
  unfold State.nudge; split
  · rename_i hc
    simp only [Bool.and_eq_true] at hc
    exact h.runningTake v rfl hc.2 hs hs
  · exact hs

theorem recheckLook (h : Whole P A B) (v : Supply) (hs : P s) : P (s.recheckLook v) := by
  unfold State.recheckLook; split
  · rename_i hc
    exact h.runningTake v rfl hc hs hs
  · exact h.walk _ rfl rfl rfl hs

theorem cardRow (h : Whole P A B) (k : Option CardKind) (v : Supply) (hs : P s) : P (s.cardRow k v) := by
  unfold State.cardRow
  repeat' split
  · exact h.takeOne v (h.slot (by assumption) hs) hs
  · exact hs
  · exact h.enterWaiting hs
  · exact hs

theorem platformReset (h : Whole P A B) (hs : P s) : P s.platformReset :=
  h.walkerPage (h.raiseIf _ _ (h.wipe (h.orphan _ (h.orphan _ (h.orphan _ (h.walk _ rfl rfl rfl hs))))))

theorem installControl (h : Whole P A B) (r : Bool) (k : Nat) (v : Supply) (hs : P s) : P (s.installControl r k v) := by
  have h1 : P (s.setWalk (fun w => { w with run := r, recheck := k })) := h.walk _ rfl rfl rfl hs
  simp only [State.installControl]
  split
  · split
    · rename_i ht
      exact h.runningTake (s := s) v rfl ht hs h1
    · exact h.enterWaiting (h.enterRunning h1)
  · exact h1
  · exact h1
  · exact h.walkerPage (h.walk _ rfl rfl rfl h1)
  · exact h.walk _ rfl rfl rfl h1
  · exact h.walkerPage (h.walk _ rfl rfl rfl h1)

theorem controlWrite (h : Whole P A B) (x : Half) (v : Supply) (hs : P s) : P (s.controlWrite x v) := by
  unfold State.controlWrite; split
  · exact h.platformReset hs
  · exact h.installControl _ _ v hs

theorem registerWrite (h : Whole P A B) (a : Nat) (x : Half) (v : Supply) (hs : P s) : P (s.registerWrite a x v) := by
  unfold State.registerWrite; split
  · exact h.attnClear x hs
  · exact h.mask x hs
  · exact h.controlWrite x v hs
  · exact h.nudge v hs
  · exact hs

/-! ### Start-up and the platform -/

theorem psCandidate (h : Whole P A B) (a b : Bool) (hs : P s) : P (s.psCandidate a b) := h.psd _ hs

theorem platformChanged (h : Whole P A B) (p : Platform) (hs : P s) : P (s.platformChanged p) := by
  unfold State.platformChanged
  repeat' split
  · exact h.derive (fun _ hc => hc) (h.lightRun hs)
  · exact h.derive (fun _ hc => hc) (h.lightStop hs)
  · exact hs

theorem takePlatform (h : Whole P A B) (a b : Bool) (hs : P s) : P (s.takePlatform a b) := by
  have h1 := h.psd { s.psd with taken0 := a, taken1 := b, candidate := none, timer := none } hs
  simp only [State.takePlatform]
  split
  · exact h.raise _ (h.platformPage h1)
  · rename_i p _
    have h2 := h.platformPage (h.psd { s.psd with taken0 := a, taken1 := b, candidate := none, timer := none, platform := p } hs)
    split
    · exact h2
    · exact h.platformChanged _ (h.raise _ h2)

theorem startPath (h : Whole P A B) (pins : Pins) (hs : P s) : P (s.startPath pins) := by
  have h1 : P (s.readComparators pins.supply) :=
    h.nextTurn (h.modSource .packB _ (h.modSource .packA _ (h.modSource .inlet _ hs)))
  simp only [State.startPath]
  split
  · exact h.feedingChanged _ (h.setSwitches _ (h.smon _ h1))
  · exact h.feedingChanged _ (h.setSwitches _ h1)
  · exact h.enterBrownout h1

theorem scanBay (h : Whole P A B) (x : Bay) (c b : Bool) (hs : P s) : P (s.scanBay x c b) := by
  have h1 : P (s.modBay x (fun r => { r with contact := c, buttonLine := b })) := h.modBay x (fun _ => ⟨rfl, rfl⟩) hs
  simp only [State.scanBay]
  split
  · split
    · exact h.enterIdentifying x false h1
    · exact h.enterSettling x h1
  · exact h1

theorem startWatching (h : Whole P A B) (pins : Pins) (hs : P s) : P (s.startWatching pins) := by
  have h1 := h.parkKeep (s := { s with mot := { s.mot with reading := true, stallTimer := some (s.timer Config.motionStall) } })
    { s.park with ack := pins.parkAck } rfl (fun hr => hr) (h.reading true (some (s.timer Config.motionStall)) hs)
  have h2 := h.psCandidate pins.ps0 pins.ps1 (h.thermSample pins.panel pins.charger pins.enclosure h1)
  simp only [State.startWatching]
  split
  · exact h.psd _ h2
  · exact h2

/-- A power-on reset: the property holds after it where it holds of the reset values. -/
theorem powerOn (h : Whole P A B) (pins : Pins) (hs : P { State.reset with pending := s.pending, turn := s.turn }) :
    P (s.powerOn pins) := h.startWatching _ (h.scanBay .b _ _ (h.scanBay .a _ _ (h.startPath pins hs)))

/-! ### Every command -/

theorem next_inj {a t : State} (ht : (Host.Outcome.next a : Host.Outcome State Fault Refusal) = .next t) : a = t := by
  injection ht

/-- Every command but the host's memory write keeps the property; a power-on reset keeps it where it holds of the reset values. -/
theorem exec (h : Whole P A B) {i : Instr} {t : State} (hw : ∀ a d, i ≠ .memoryWrite a d)
    (hp : ∀ pins, i = .powerOnReset pins → P { State.reset with pending := s.pending, turn := s.turn }) (hs : P s)
    (ht : exec i s = .next t) : P t := by
  cases i with
  | powerOnReset pins => obtain rfl := next_inj ht; exact h.commit _ (h.powerOn pins (hp pins rfl))
  | hrstChange low =>
    obtain rfl := next_inj ht; repeat' split
    · exact hs
    · exact h.psd _ hs
    · exact h.psd _ hs
  | hrstDeglitchExpiry =>
    obtain rfl := next_inj ht; split
    · exact h.platformReset (h.psd _ hs)
    · exact hs
  | psLineChange a b =>
    obtain rfl := next_inj ht; split
    · exact hs
    · exact h.psCandidate a b hs
  | psDeglitchExpiry =>
    obtain rfl := next_inj ht; split
    · exact h.commit _ (h.takePlatform _ _ hs)
    · exact hs
  | senseSample a b c =>
    obtain rfl := next_inj ht
    exact h.power (h.budgetPage (h.pathSet _ _ _ (h.smon _ hs)))
  | comparatorTrip x a => obtain rfl := next_inj ht; exact h.commit _ (h.comparatorReads x a hs)
  | inSettleExpiry n =>
    obtain rfl := next_inj ht; split
    · exact h.commit _ (h.inletPresence _ _ _ hs)
    · exact hs
  | transferSettleExpiry =>
    obtain rfl := next_inj ht; split
    · exact h.commit _ (h.breakTransfer _ hs)
    · exact hs
  | postImpactExpiry =>
    obtain rfl := next_inj ht; split
    · exact h.commit _ (h.removeHold (by decide) hs)
    · exact hs
  | gaugeAttemptDone x v a => obtain rfl := next_inj ht; exact h.commit _ (h.attemptGood x _ a hs)
  | gaugeAttemptNak x => obtain rfl := next_inj ht; exact h.commit _ (h.attemptBad x hs)
  | gaugeAttemptTimeout x => obtain rfl := next_inj ht; exact h.commit _ (h.attemptBad x hs)
  | pollIntervalExpiry x =>
    obtain rfl := next_inj ht; split
    · exact h.commit _ (h.beginPoll x hs)
    · exact hs
  | contactChange x c =>
    obtain rfl := next_inj ht; split
    · exact hs
    · refine h.commit _ ?_
      split
      · exact h.contactCloses x hs
      · exact h.contactOpens x hs
  | removalConfirmExpiry x =>
    obtain rfl := next_inj ht; split
    · exact h.commit _ (h.confirmRemoval x hs)
    · exact hs
  | baySettleExpiry x =>
    obtain rfl := next_inj ht; split
    · exact h.commit _ (h.enterIdentifying x true hs)
    · exact hs
  | buttonChange x p =>
    obtain rfl := next_inj ht; split
    · exact hs
    · exact h.modBay x (fun _ => ⟨rfl, rfl⟩) hs
  | buttonDebounceExpiry x =>
    obtain rfl := next_inj ht; split
    · exact h.commit _ (h.debounced x hs)
    · exact hs
  | prepareLimitExpiry x =>
    obtain rfl := next_inj ht; split
    · exact h.commit _ (h.abandon x _ _ rfl hs)
    · exact hs
  | releaseWindowExpiry x =>
    obtain rfl := next_inj ht; split
    · exact h.commit _ (h.endWindow (h.anyBay x) hs)
    · exact hs
  | risingSettleExpiry =>
    obtain rfl := next_inj ht; split
    · exact h.commit _ (h.chgRisen hs)
    · exact hs
  | fallingSettleExpiry =>
    obtain rfl := next_inj ht; split
    · exact h.commit _ (h.chgFallen hs)
    · exact hs
  | thermistorSampling a b c => obtain rfl := next_inj ht; exact h.commit _ (h.thermSample a b c hs)
  | lightStartDone =>
    obtain rfl := next_inj ht; split
    · exact h.als _ (fun hf => hf) hs
    · exact hs
  | integrationExpiry =>
    obtain rfl := next_inj ht; split
    · exact h.als _ (fun hf => hf) hs
    · exact hs
  | lightReadDone c j =>
    obtain rfl := next_inj ht; split
    · exact h.commit _ (h.lightComplete _ _ hs)
    · exact hs
  | lightTransactionNak => obtain rfl := next_inj ht; exact h.lightTransactionFails hs
  | lightTransactionTimeout => obtain rfl := next_inj ht; exact h.lightTransactionFails hs
  | lightWaitExpiry =>
    obtain rfl := next_inj ht; split
    · exact h.als _ (fun hf => hf) hs
    · exact hs
  | lightIdleDone =>
    obtain rfl := next_inj ht; split
    · exact h.lightIdleEnd hs
    · exact hs
  | lightFaultTimerExpiry =>
    obtain rfl := next_inj ht; split
    · exact h.alsFault hs
    · exact hs
  | slewTick =>
    obtain rfl := next_inj ht; split
    · exact h.commit _ (h.slew hs)
    · exact hs
  | tokenReleaseExpiry =>
    obtain rfl := next_inj ht; split
    · exact h.commit _ (h.bldTimeout hs)
    · exact hs
  | motionReadTick => obtain rfl := next_inj ht; exact h.reading true s.mot.stallTimer hs
  | motionReadDone q x y z =>
    obtain rfl := next_inj ht; split
    · exact h.commit _ (h.motionRead q x y z hs)
    · exact hs
  | motionStallExpiry =>
    obtain rfl := next_inj ht; split
    · exact h.commit _ (h.motionStall hs)
    · exact hs
  | parkAckChange a =>
    obtain rfl := next_inj ht; split
    · exact hs
    · exact h.parkAck a hs
  | ackTimerExpiry =>
    obtain rfl := next_inj ht; split
    · exact h.parkTimeout hs
    · exact hs
  | motionPageTick => obtain rfl := next_inj ht; exact h.motionPage hs
  | msClockTick => obtain rfl := next_inj ht; exact h.clockTick _ hs
  | secondsTick => obtain rfl := next_inj ht; exact h.secondsTick _ hs
  | memoryRead a n =>
    obtain rfl := next_inj ht; split
    · exact h.miso _ hs
    · exact h.miso _ hs
  | memoryWrite a d => exact absurd rfl (hw a d)
  | registerRead a n =>
    obtain rfl := next_inj ht; split
    · exact h.miso _ hs
    · exact h.miso _ hs
  | registerWrite a d v =>
    obtain rfl := next_inj ht; split
    · exact h.commit _ (h.registerWrite _ _ v (h.miso _ hs))
    · exact h.miso _ hs
  | unknownCommand c n => obtain rfl := next_inj ht; exact h.miso _ hs
  | attnWrite v => obtain rfl := next_inj ht; exact h.attnClear v (h.miso _ hs)
  | maskWrite v => obtain rfl := next_inj ht; exact h.mask v (h.miso _ hs)
  | controlRun x v => obtain rfl := next_inj ht; exact h.commit _ (h.controlWrite x v (h.miso _ hs))
  | controlRecheck x v => obtain rfl := next_inj ht; exact h.commit _ (h.controlWrite x v (h.miso _ hs))
  | softReset x => obtain rfl := next_inj ht; exact h.platformReset (h.miso _ hs)
  | nudge x v => obtain rfl := next_inj ht; exact h.commit _ (h.nudge v (h.miso _ hs))
  | recheckExpiry v =>
    obtain rfl := next_inj ht; split
    · exact h.commit _ (h.recheckLook v hs)
    · exact hs
  | setPanel => obtain rfl := next_inj ht; exact h.commit _ (h.cardRow _ _ hs)
  | setCurve => obtain rfl := next_inj ht; exact h.commit _ (h.cardRow _ _ hs)
  | setBrightness => obtain rfl := next_inj ht; exact h.commit _ (h.cardRow _ _ hs)
  | setLight => obtain rfl := next_inj ht; exact h.commit _ (h.cardRow _ _ hs)
  | setLoad => obtain rfl := next_inj ht; exact h.commit _ (h.cardRow _ _ hs)
  | setBaseLoad => obtain rfl := next_inj ht; exact h.commit _ (h.cardRow _ _ hs)
  | setPowerPolicy => obtain rfl := next_inj ht; exact h.commit _ (h.cardRow _ _ hs)
  | setSourceTrip v => obtain rfl := next_inj ht; exact h.commit _ (h.cardRow _ _ hs)
  | setCharge => obtain rfl := next_inj ht; exact h.commit _ (h.cardRow _ _ hs)
  | setThermal => obtain rfl := next_inj ht; exact h.commit _ (h.cardRow _ _ hs)
  | setMotion => obtain rfl := next_inj ht; exact h.commit _ (h.cardRow _ _ hs)
  | setClassifier => obtain rfl := next_inj ht; exact h.commit _ (h.cardRow _ _ hs)
  | setHold => obtain rfl := next_inj ht; exact h.commit _ (h.cardRow _ _ hs)
  | setGauge => obtain rfl := next_inj ht; exact h.commit _ (h.cardRow _ _ hs)
  | releaseBay => obtain rfl := next_inj ht; exact h.commit _ (h.cardRow _ _ hs)
  | identifyPack => obtain rfl := next_inj ht; exact h.commit _ (h.cardRow _ _ hs)
  | park => obtain rfl := next_inj ht; exact h.commit _ (h.cardRow _ _ hs)
  | releasePark => obtain rfl := next_inj ht; exact h.commit _ (h.cardRow _ _ hs)
  | unknownKindCard => obtain rfl := next_inj ht; exact h.commit _ (h.cardRow _ _ hs)

end Whole

end Sys2Proof.Machine
end

