-- ==== Sys2Proof/Laws/Memory.lean ====
section
/-! SUPPORT. The exchange memory: every memory operation keeps the canonical form, a read gives the byte that the last write put there, and
a write leaves every other byte alone. -/

namespace Sys2Proof.Machine

/-! ### Reading -/

theorem find_append (a : Nat) (l m : List Host.Cell) : Mem.find a (l ++ m) = (Mem.find a l).or (Mem.find a m) := by
  induction l with
  | nil => rfl
  | cons c cs ih =>
    simp only [List.cons_append, Mem.find]
    split
    · rfl
    · exact ih

theorem find_filter (a : Nat) (p : Nat → Bool) (l : List Host.Cell) :
    Mem.find a (l.filter (fun c => p c.1)) = if p a then Mem.find a l else none := by
  induction l with
  | nil => simp [Mem.find]
  | cons c cs ih =>
    rw [List.filter_cons]
    by_cases hc : c.1 = a
    · subst hc
      by_cases hp : p c.1 = true
      · simp [hp, Mem.find]
      · simp only [hp]; rw [if_neg (by simp), ih, if_neg hp, if_neg (by simp)]
    · by_cases hp : p c.1 = true
      · rw [if_pos hp]; simp only [Mem.find, if_neg hc]; exact ih
      · rw [if_neg hp, ih]; simp only [Mem.find, if_neg hc]

theorem find_cells_outside {a base : Nat} (bs : List Byte) (h : a < base ∨ base + bs.length ≤ a) :
    Mem.find a (Mem.cells base bs) = none := by
  induction bs generalizing base with
  | nil => rfl
  | cons b bs ih =>
    have hl : (b :: bs).length = bs.length + 1 := rfl
    have h1 := @ih (base + 1) (by omega)
    unfold Mem.cells
    split
    · exact h1
    · unfold Mem.find; rw [if_neg (by show ¬ base = a; omega)]; exact h1

theorem find_cells_inside {a base : Nat} (bs : List Byte) (h1 : base ≤ a) (h2 : a < base + bs.length) :
    (Mem.find a (Mem.cells base bs)).getD (Mem.background a) = bs.getD (a - base) 0 := by
  induction bs generalizing base with
  | nil => exact absurd h2 (by simp; omega)
  | cons b bs ih =>
    have hl : (b :: bs).length = bs.length + 1 := rfl
    by_cases he : base = a
    · subst he
      rw [Nat.sub_self]
      unfold Mem.cells
      split
      · rename_i hb
        rw [find_cells_outside bs (by omega)]; exact hb.symm
      · simp [Mem.find]
    · have h3 := @ih (base + 1) (by omega) (by omega)
      have h4 : a - base = (a - (base + 1)) + 1 := by omega
      rw [h4, List.getD_cons_succ, ← h3]
      have h5 : Mem.find a (Mem.cells base (b :: bs)) = Mem.find a (Mem.cells (base + 1) bs) := by
        rw [Mem.cells]
        split
        · rfl
        · simp only [Mem.find, if_neg he]
      rw [h5]

/-- A write leaves every byte outside its run as it was. -/
theorem read_write_outside (m : List Host.Cell) {a base : Nat} (bs : List Byte) (h : a < base ∨ base + bs.length ≤ a) :
    Mem.read (Mem.write m base bs) a = Mem.read m a := by
  unfold Mem.read Mem.write
  rw [find_append, find_append, find_cells_outside bs h,
    find_filter a (fun k => Nat.blt k base), find_filter a (fun k => Nat.ble (base + bs.length) k)]
  cases h with
  | inl h =>
    have h1 : Nat.blt a base = true := Nat.ble_eq_true_of_le h
    rw [if_pos h1]
    cases hf : Mem.find a m <;> simp
  | inr h =>
    have h1 : ¬ Nat.blt a base = true := fun hc => by have := Nat.le_of_ble_eq_true hc; omega
    have h2 : Nat.ble (base + bs.length) a = true := Nat.ble_eq_true_of_le h
    rw [if_neg h1, if_pos h2]; rfl

/-- A byte of the run reads as it was written. -/
theorem read_write_inside (m : List Host.Cell) {a base : Nat} (bs : List Byte) (h1 : base ≤ a) (h2 : a < base + bs.length) :
    Mem.read (Mem.write m base bs) a = bs.getD (a - base) 0 := by
  unfold Mem.read Mem.write
  rw [find_append, find_append, find_filter a (fun k => Nat.blt k base), find_filter a (fun k => Nat.ble (base + bs.length) k)]
  have h3 : ¬ Nat.blt a base = true := fun hc => by have := Nat.le_of_ble_eq_true hc; omega
  have h4 : ¬ Nat.ble (base + bs.length) a = true := fun hc => by have := Nat.le_of_ble_eq_true hc; omega
  rw [if_neg h3, if_neg h4, ← find_cells_inside bs h1 h2]
  cases Mem.find a (Mem.cells base bs) <;> rfl

/-! ### The canonical form -/

theorem wfFrom_mono {lo lo' : Nat} (h : lo' ≤ lo) {m : List Host.Cell} (hm : Mem.wfFrom lo m = true) : Mem.wfFrom lo' m = true := by
  cases m with
  | nil => rfl
  | cons c cs =>
    simp only [Mem.wfFrom, Bool.and_eq_true] at *
    exact ⟨⟨⟨Nat.ble_eq_true_of_le (Nat.le_trans h (Nat.le_of_ble_eq_true hm.1.1.1)), hm.1.1.2⟩, hm.1.2⟩, hm.2⟩

theorem wfFrom_below {lo base : Nat} {m n : List Host.Cell} (hlo : lo ≤ base) (hm : Mem.wfFrom lo m = true)
    (hn : Mem.wfFrom base n = true) : Mem.wfFrom lo (m.filter (fun c => Nat.blt c.1 base) ++ n) = true := by
  induction m generalizing lo with
  | nil => exact wfFrom_mono hlo hn
  | cons c cs ih =>
    simp only [Mem.wfFrom, Bool.and_eq_true] at hm
    rw [List.filter_cons]
    split
    · rename_i hb
      have hb' : c.1 + 1 ≤ base := Nat.le_of_ble_eq_true hb
      simp only [List.cons_append, Mem.wfFrom, Bool.and_eq_true]
      exact ⟨hm.1, ih hb' hm.2⟩
    · exact ih hlo (wfFrom_mono (by have := Nat.le_of_ble_eq_true hm.1.1.1; omega) hm.2)

theorem wfFrom_above {lo hi : Nat} {m : List Host.Cell} (hm : Mem.wfFrom lo m = true) :
    Mem.wfFrom hi (m.filter (fun c => Nat.ble hi c.1)) = true := by
  induction m generalizing lo hi with
  | nil => rfl
  | cons c cs ih =>
    simp only [Mem.wfFrom, Bool.and_eq_true] at hm
    rw [List.filter_cons]
    split
    · rename_i hb
      have hb' := Nat.le_of_ble_eq_true hb
      have hall : cs.filter (fun d => Nat.ble hi d.1) = cs.filter (fun d => Nat.ble (c.1 + 1) d.1) := by
        have hge : ∀ {lo : Nat} {l : List Host.Cell}, Mem.wfFrom lo l = true → ∀ d ∈ l, lo ≤ d.1 := by
          intro lo l
          induction l generalizing lo with
          | nil => intro _ d hd; cases hd
          | cons e es ihe =>
            intro he d hd
            simp only [Mem.wfFrom, Bool.and_eq_true] at he
            have h1 := Nat.le_of_ble_eq_true he.1.1.1
            cases hd with
            | head => exact h1
            | tail _ hd => have := ihe he.2 d hd; omega
        apply List.filter_congr
        intro d hd
        have h1 := hge hm.2 d hd
        have h2 : Nat.ble hi d.1 = true := Nat.ble_eq_true_of_le (by omega)
        have h3 : Nat.ble (c.1 + 1) d.1 = true := Nat.ble_eq_true_of_le h1
        rw [h2, h3]
      simp only [Mem.wfFrom, Bool.and_eq_true]
      exact ⟨⟨⟨hb, hm.1.1.2⟩, hm.1.2⟩, by rw [hall]; exact ih hm.2⟩
    · exact ih hm.2

theorem wfFrom_cells {base : Nat} {bs : List Byte} {n : List Host.Cell} (hb : base + bs.length ≤ Config.memorySize)
    (hn : Mem.wfFrom (base + bs.length) n = true) : Mem.wfFrom base (Mem.cells base bs ++ n) = true := by
  induction bs generalizing base with
  | nil => exact hn
  | cons b bs ih =>
    have hl : (b :: bs).length = bs.length + 1 := rfl
    have h1 := @ih (base + 1) (by omega) (by rw [show base + 1 + bs.length = base + (b :: bs).length from by omega]; exact hn)
    unfold Mem.cells
    split
    · exact wfFrom_mono (Nat.le_succ base) h1
    · rename_i hne
      simp only [List.cons_append, Mem.wfFrom, Bool.and_eq_true]
      exact ⟨⟨⟨Nat.ble_eq_true_of_le (Nat.le_refl base), Nat.ble_eq_true_of_le (show base + 1 ≤ Config.memorySize by omega)⟩,
        by simpa using hne⟩, h1⟩

/-- A write within the memory keeps the canonical form. -/
theorem wf_write {m : List Host.Cell} {base : Nat} {bs : List Byte} (hb : base + bs.length ≤ Config.memorySize)
    (hm : Mem.wf m = true) : Mem.wf (Mem.write m base bs) = true := by
  unfold Mem.write
  rw [List.append_assoc]
  exact wfFrom_below (Nat.zero_le _) hm (wfFrom_cells hb (wfFrom_above hm))

theorem wf_hostWrite {m : List Host.Cell} (a : Nat) (b : Byte) (hm : Mem.wf m = true) : Mem.wf (Mem.hostWrite m a b) = true := by
  unfold Mem.hostWrite
  split
  · exact wf_write (by have := Nat.mod_lt a (show 0 < Config.memorySize by decide); exact this) hm
  · exact hm

/-- A host write keeps the canonical form, whatever its address and length. -/
theorem wf_hostWriteRun {m : List Host.Cell} (a : Nat) (bs : List Byte) (hm : Mem.wf m = true) :
    Mem.wf (Mem.hostWriteRun m a bs) = true := by
  induction bs generalizing m a with
  | nil => exact hm
  | cons b bs ih => exact ih (a + 1) (wf_hostWrite a b hm)

/-- A host write leaves every byte alone that the host may not write. -/
theorem read_hostWriteRun_guarded (m : List Host.Cell) (a : Nat) (bs : List Byte) {c : Nat} (hc : Mem.hostWritable c = false) :
    Mem.read (Mem.hostWriteRun m a bs) c = Mem.read m c := by
  induction bs generalizing m a with
  | nil => rfl
  | cons b bs ih =>
    unfold Mem.hostWriteRun
    rw [ih]
    unfold Mem.hostWrite
    split
    · rename_i hw
      refine read_write_outside m [b] ?_
      have : Mem.wrap a ≠ c := fun he => by rw [he, hc] at hw; cases hw
      show c < Mem.wrap a ∨ Mem.wrap a + 1 ≤ c
      omega
    · rfl

end Sys2Proof.Machine
end

