-- ==== Sys2Proof/Laws/Pages.lean ====
section
/-! SUPPORT. The lengths of the page images, what each rewrite stores to, and that it keeps the canonical form of the memory. -/

namespace Sys2Proof.Machine

/-! ### Lengths -/

@[simp] theorem length_u8 (n : Nat) : (u8 n).length = 1 := rfl
@[simp] theorem length_u16 (n : Nat) : (u16 n).length = 2 := rfl
@[simp] theorem length_u32 (n : Nat) : (u32 n).length = 4 := rfl
@[simp] theorem length_i16 (z : Int) : (i16 z).length = 2 := rfl
@[simp] theorem length_yesNo (b : Bool) : (yesNo b).length = 1 := rfl
@[simp] theorem length_pad (n : Nat) : (pad n).length = n := List.length_replicate
@[simp] theorem length_optCode {α : Type} (c : α → Nat) (o : Option α) : (optCode c o).length = 1 := by cases o <;> rfl

theorem length_sourceImage (e : SourceEntry) (c : List Byte) (o : Nat) (h : c.length = 1) : (sourceImage e c o).length = 20 := by
  simp only [sourceImage, List.length_append, length_u8, length_u16, length_u32, length_i16, length_pad, h]

theorem length_packImage (p : PackRecord) (n : Clock) : (packImage p n).length = 24 := by
  simp only [packImage, List.length_append, length_u8, length_u16, length_i16]

theorem length_bayImage (b : BayRecord) (n : Clock) : (bayImage b n).length = 28 := by
  simp only [bayImage, List.length_append, length_u8, length_u16, length_u32, length_pad, length_optCode]

theorem length_chargeImage (c : Charger) (n : Clock) : (chargeImage c n).length = 32 := by
  simp only [chargeImage, List.length_append, length_u8, length_u16, length_u32, length_yesNo, length_optCode]

/-- The power page's body. -/
theorem length_powerImage (s : State) (n : Clock) : (powerImage s n).length = 214 := by
  unfold powerImage
  simp only [List.length_append, length_u8, length_u16, length_u32, length_pad, length_optCode,
    length_sourceImage _ _ _ (length_optCode _ _), length_sourceImage _ _ _ (length_u8 _), length_packImage, length_bayImage,
    length_chargeImage]

theorem length_lightImage (s : State) : (lightImage s).length = 26 := by
  simp only [lightImage, List.length_append, length_u8, length_u16, length_u32, length_pad, length_optCode]

/-- A flat map of pieces of one length. -/
theorem length_flatMap {α : Type} (f : α → List Byte) (n : Nat) (h : ∀ x, (f x).length = n) (l : List α) :
    (l.flatMap f).length = n * l.length := by
  induction l with
  | nil => rfl
  | cons x xs ih => rw [List.flatMap_cons, List.length_append, ih, h, List.length_cons, Nat.mul_succ, Nat.add_comm]

theorem length_curveImage (c : List CurvePoint) (h : c.length ≤ 12) : (curveImage c).length = 48 := by
  unfold curveImage
  rw [List.length_append, length_flatMap _ 4 (fun _ => rfl), length_pad]
  omega

theorem length_backlightImage (s : State) (h : s.bld.curve.length ≤ 12) : (backlightImage s).length = 100 := by
  unfold backlightImage
  simp only [List.length_append, length_u8, length_u16, length_u32, length_i16, length_curveImage _ h]

theorem length_motionImage (s : State) : (motionImage s).length = 102 := by
  have hr : ∀ r : ClassRule, (ruleImage r).length = 8 := fun _ => rfl
  unfold motionImage
  simp only [List.length_append, length_u8, length_u16, length_u32, length_i16, length_yesNo, length_pad, length_optCode, hr]

theorem length_thermalImage (t : Therm) : (thermalImage t).length = 106 := by
  simp only [thermalImage, zoneImage, List.length_append, length_u8, length_u16, length_u32, length_i16, length_pad]

theorem length_budgetImage (b : Budget) (n : Nat) (h : b.entries.length = 12) : (budgetImage b n).length = 226 := by
  unfold budgetImage
  rw [List.length_append, List.length_append, length_flatMap askImage 8 (fun _ => rfl), length_flatMap entryImage 8 (fun _ => rfl)]
  simp only [List.length_append, length_u8, length_u32, length_yesNo, length_pad, length_optCode, h]

/-! ### What a write and a rewrite store to -/

@[simp] theorem write_mem (s : State) (a : Nat) (bs : List Byte) : (s.write a bs).mem = Mem.write s.mem a bs := rfl

/-- A write stores to its run alone. -/
theorem byte_write_outside (s : State) {a base : Nat} (bs : List Byte) (h : a < base ∨ base + bs.length ≤ a) :
    (s.write base bs).byte a = s.byte a := read_write_outside s.mem bs h

theorem byte_write_inside (s : State) {a base : Nat} (bs : List Byte) (h1 : base ≤ a) (h2 : a < base + bs.length) :
    (s.write base bs).byte a = bs.getD (a - base) 0 := read_write_inside s.mem bs h1 h2

/-- A rewrite stores to its page alone: the update count and the body. -/
theorem byte_rewrite_outside (s : State) {a page : Nat} (body : List Byte) (h : a < page ∨ page + 2 + body.length ≤ a) :
    (s.rewrite page body).byte a = s.byte a := by
  refine byte_write_outside s _ ?_
  rw [List.length_append, length_u16]
  omega

theorem wf_rewrite (s : State) {page : Nat} {body : List Byte} (h : page + 2 + body.length ≤ Config.memorySize)
    (hs : s.memorySound) : (s.rewrite page body).memorySound := by
  refine wf_write ?_ hs
  rw [List.length_append, length_u16]
  omega

end Sys2Proof.Machine
end

