-- ==== Sys2Proof/Laws/Samples.lean ====
section
/-! SUPPORT. What the taking of a motion sample and a stall keep: the two fields of `Whole` that the motion unit's own properties must
show for themselves, derived here for every property that the primitive changes of motion, park and impacts keep. -/

namespace Sys2Proof.Machine

/-- A property that the changes which a motion sample makes keep too. -/
structure Sensed (P : State → Prop) (A : Bay → Prop) : Prop extends Keeps P A where
  anyBay : ∀ x, A x
  motionPage : ∀ {s}, P s → P s.rewriteMotion
  mot : ∀ {s} (m : Motion), (m.stalled = true → s.mot.stalled = true) → P s → P { s with mot := m }
  stalled : ∀ {s} (m : Motion), P s → P ((({ s with mot := m } : State).rewriteMotion).raise .sensorFault)
  hold : ∀ {s} (k : HoldKind), P s → P (s.placeHold k)
  unhold : ∀ {s} {k : HoldKind} (t : Option Timer),
    (s.empties k = true → s.path.mode = .paused → s.path.transfer = none) → P s → P (s.unheld k t)
  remake : ∀ {s} {k : HoldKind} (u : Option Timer) (t : Transfer), s.empties k = true →
    s.path.mode = .paused → s.path.transfer.isSome = true → P s → P ((s.unheld k u).setPath .making (some t))
  park : ∀ {s} (p : Park), p.latch = s.park.latch → P s → P { s with park := p }
  latch : ∀ {s} (p : Park), P s → P (({ s with park := p } : State).raise .parkLatched)
  icl : ∀ {s} (n : BitVec 16), P s → P { s with icl := { s.icl with nextSeq := n } }
  record : ∀ {s} (r : List Byte), r.length = 32 → P s → P (s.place r)

namespace Sensed

variable {P : State → Prop} {A : Bay → Prop} {s : State}

theorem removeHold (h : Sensed P A) (k : HoldKind) (hs : P s) : P (s.removeHold k) := by
  simp only [State.removeHold]
  split
  · rename_i he
    split
    · rename_i t hm ht
      exact h.remake _ _ he hm (by rw [ht]; rfl) hs
    · rename_i hn
      refine h.evaluate _ (h.unhold _ ?_ hs)
      intro _ hm
      cases ht : s.path.transfer with
      | none => rfl
      | some t => exact absurd ht (hn t hm)
  · rename_i he
    exact h.unhold _ (fun h1 => absurd h1 he) hs

theorem setPark (h : Sensed P A) (p : Park) (hl : p.latch = s.park.latch) (hs : P s) : P (s.setPark p) := by
  simp only [State.setPark]; split
  · exact h.park p hl hs
  · exact h.motionPage (h.park p hl hs)

theorem parkRequest (h : Sensed P A) (hs : P s) : P s.parkRequest := by
  unfold State.parkRequest
  repeat' split
  all_goals first
    | exact hs
    | exact h.setPark _ rfl hs

theorem parkRelease (h : Sensed P A) (hs : P s) : P s.parkRelease := by
  unfold State.parkRelease; split
  · exact hs
  · exact h.complete _ _ _ (Whole.parkFields_inside _) (h.setPark _ rfl hs)

theorem autoRelease (h : Sensed P A) (hs : P s) : P s.autoRelease := by
  unfold State.autoRelease; split
  · exact h.parkRelease hs
  · exact hs

theorem raise_rewriteMotion (s : State) (b : AttnBit) : s.rewriteMotion.raise b = (s.raise b).rewriteMotion := rfl

theorem parkLatch (h : Sensed P A) (hs : P s) : P s.parkLatch := by
  unfold State.parkLatch
  refine h.parkRequest ?_
  simp only [State.setPark]; split
  · exact h.latch _ hs
  · rw [raise_rewriteMotion]; exact h.motionPage (h.latch _ hs)

theorem markSuspect (h : Sensed P A) (x : Bay) (hs : P s) : P (s.markSuspect x) := by
  simp only [State.markSuspect]
  split
  · exact hs
  · refine h.forcedPoll x ?_
    split
    · exact h.pack x _ hs
    · exact h.report _ (h.chgEvaluate (h.pack x _ hs))

theorem pollAndMark (h : Sensed P A) (x : Bay) (hs : P s) : P (s.pollAndMark x) := by
  unfold State.pollAndMark
  repeat' split
  · exact h.markSuspect x (h.forcedPoll x (h.nextTurn hs))
  · exact h.forcedPoll x (h.markSuspect x (h.nextTurn hs))
  · exact h.markSuspect x (h.forcedPoll x hs)

theorem pollAndMarkBoth (h : Sensed P A) (hs : P s) : P s.pollAndMarkBoth := by
  unfold State.pollAndMarkBoth
  repeat' split
  · exact h.pollAndMark _ (h.pollAndMark _ (h.nextTurn hs))
  · exact h.pollAndMark _ (h.pollAndMark _ (h.nextTurn hs))
  · exact h.pollAndMark _ (h.pollAndMark _ hs)

theorem actions (h : Sensed P A) (v : Nat) (hs : P s) : P (s.actions v) := by
  unfold State.actions
  split
  · exact hs
  · exact h.forcedPoll _ (h.forcedPoll _ hs)
  · exact h.pollAndMarkBoth (h.hold _ hs)
  · exact h.parkLatch (h.pollAndMarkBoth (h.hold _ hs))

theorem recordImage_length (s : State) (f : Finished) (n : Nat) : (recordImage s f n).length = 32 := by
  cases ha : f.axis <;> simp [recordImage, u8, u16, u32, pad, optCode, ha]

theorem logImpact (h : Sensed P A) (f : Finished) (hs : P s) : P (s.logImpact f) := by
  have h1 := h.icl (s.icl.nextSeq + 1) hs
  have h2 := h.bay .b (fun b => { b with glitches := 0 }) (h.anyBay _) (fun _ => ⟨rfl, rfl⟩)
    (h.bay .a (fun b => { b with glitches := 0 }) (h.anyBay _) (fun _ => ⟨rfl, rfl⟩) h1)
  exact h.record _ (recordImage_length _ _ _) (h.actions _ (h.motionPage h2))

theorem finishFall (h : Sensed P A) (d : Option Finished) (r : Bool) (hs : P s) : P (s.finishFall d r) := by
  unfold State.finishFall
  repeat' split
  · exact hs
  · exact h.removeHold _ (h.logImpact _ (h.nextTurn hs))
  · exact h.logImpact _ (h.removeHold _ (h.nextTurn hs))
  · exact h.removeHold _ (h.logImpact _ hs)
  · exact h.logImpact _ hs

theorem handMotion (h : Sensed P A) (d : Handed) (hs : P s) : P (s.handMotion d) := by
  have h1 : P (if d.park then s.parkRequest else s) := by
    split
    · exact h.parkRequest hs
    · exact hs
  have h2 : ∀ {u : State}, P u → P (if d.place then u.placeHold .freefall else u) := by
    intro u hu; split
    · exact h.hold _ hu
    · exact hu
  have h3 : ∀ {u : State}, P u → P (if d.home then u.autoRelease else u) := by
    intro u hu; split
    · exact h.autoRelease hu
    · exact hu
  exact h3 (h.finishFall _ _ (h2 h1))

/-- The detector does not touch the stall flag. -/
theorem apply_stalled (m : Motion) (l : Option Sample) (t : Sample) (d : Nat) : (m.apply l t d).1.stalled = m.stalled := by
  have hi : ∀ n : Motion, n.stalled = m.stalled → (n.inIdle t).1.stalled = m.stalled := by
    intro n hn; unfold Motion.inIdle Motion.candidate Motion.shock; repeat' split
    all_goals exact hn
  have hs : ∀ n : Motion, n.stalled = m.stalled → (n.inSettle t d).1.stalled = m.stalled := by
    intro n hn
    simp only [Motion.inSettle, Motion.candidate, Motion.shock]
    repeat' split
    all_goals exact hn
  unfold Motion.apply
  split
  · exact hi m rfl
  · unfold Motion.inCandidate Motion.backToOrigin
    repeat' split
    all_goals first
      | rfl
      | exact hs _ rfl
      | exact hi _ rfl
  · simp only [Motion.inFalling]
    repeat' split
    all_goals rfl
  · simp only [Motion.inImpact]
    repeat' split
    all_goals rfl
  · exact hs m rfl

theorem motionRead (h : Sensed P A) (q : Byte) (x y z : Half) (hs : P s) : P (s.motionRead q x y z) := by
  have h1 := h.mot { s.mot with reading := false } (fun hf => hf) hs
  simp only [State.motionRead]
  split
  · exact h1
  · refine h.handMotion _ ?_
    have h2 := h.mot (s := { s with mot := { s.mot with reading := false } })
      (Motion.apply { s.mot with
        reading := false, last := some (sampleOf q x y z), fresh := false, stalled := false, stallTimer := some (s.timer Config.motionStall)
        missed := min 65535 (s.mot.missed + (s.mot.difference q - 1)) } s.mot.last (sampleOf q x y z) (s.mot.difference q)).1
      (fun hf => by rw [apply_stalled] at hf; cases hf) h1
    split
    · exact h.motionPage h2
    · exact h2

theorem motionStall (h : Sensed P A) (hs : P s) : P s.motionStall := h.removeHold _ (h.stalled _ hs)

end Sensed

end Sys2Proof.Machine
end

