-- ==== Sys2Proof/Laws/Operations.lean ====
section
/-! SUPPORT. What each shared operation can do, said once: the parts of the state that it changes, the bytes that it stores and the bits
that it raises. -/

namespace Sys2Proof.Machine

/-! ### Numbers in memory -/

/-- A four-byte number that was written reads back. -/
theorem num_write4 (s : State) (a n : Nat) (h : n < 2^32) (ha : a + 4 ≤ 8192) : (s.write a (u32 n)).num a 4 = n := by
  have rd : ∀ k, k < 4 → (s.write a (u32 n)).byte (a+k) = (u32 n).getD k 0 := by
    intro k hk; rw [byte_write_inside _ _ (by omega) (by simp [u32]; omega)]; congr 1; omega
  have r0 := rd 0 (by omega); have r1 := rd 1 (by omega); have r2 := rd 2 (by omega); have r3 := rd 3 (by omega)
  simp only [State.num, Mem.readRun, fromLE, Mem.wrap, Config.memorySize]
  rw [Nat.mod_eq_of_lt (by omega), Nat.mod_eq_of_lt (by omega), Nat.mod_eq_of_lt (by omega), Nat.mod_eq_of_lt (by omega)]
  simp only [State.byte, Nat.add_zero] at r0 r1 r2 r3
  simp only [Nat.add_assoc]
  rw [r0, r1, r2, r3]; simp [u32]; omega

/-! ### Attention bits -/

/-- The word of a bit has that bit alone. -/
theorem word_bit (b c : AttnBit) : c.word.getLsbD b.index = decide (b = c) := by cases b <;> cases c <;> decide

/-- A raise sets its bit and leaves every other. -/
theorem attnBit_raise (s : State) (b c : AttnBit) : (s.raise c).attnBit b = (s.attnBit b || decide (b = c)) := by
  unfold State.attnBit State.raise
  simp only [BitVec.getLsbD_or, word_bit]

/-- A conditional raise as one update. -/
theorem raiseIf_eq (s : State) (c : Bool) (b : AttnBit) :
    s.raiseIf c b = { s with attn := ⟨if c then s.attn.bits ||| b.word else s.attn.bits, s.attn.mask⟩ } := by cases c <;> rfl

/-- The word of the level bits, bit by bit. -/
theorem levelWord_bit (s : State) (b : AttnBit) : s.levelWord.getLsbD b.index = s.condition b := by
  have : ∀ (p q r t : Bool) (b : AttnBit) , ((if p then AttnBit.word .brownout else 0) ||| (if q then AttnBit.word .thermalCritical else 0) ||| (if r then AttnBit.word .parkLatched else 0) ||| (if t then AttnBit.word .sensorFault else 0)).getLsbD b.index = (match b with | .brownout => p | .thermalCritical => q | .parkLatched => r | .sensorFault => t | _ => false) := by
    intro p q r t b; cases b <;> revert p q r t <;> decide
  unfold State.levelWord; rw [this]; cases b <;> rfl

/-- A conditional raise changes the attention word alone. -/
theorem raiseIf_spec (s : State) (c b) : ∃ a, s.raiseIf c b = { s with attn := a } := by
  cases c
  · exact ⟨s.attn, rfl⟩
  · exact ⟨_, rfl⟩

/-! ### Cards and resources -/

/-- The writing of result fields changes memory alone. -/
theorem writeFields_spec (s : State) (slot : BitVec 5) (fs : Fields) : ∃ m, s.writeFields slot fs = { s with mem := m } := by
  induction fs generalizing s with
  | nil => exact ⟨s.mem, rfl⟩
  | cons f fs ih => obtain ⟨m, hm⟩ := ih (s.write (Mem.slot slot + f.1) f.2); exact ⟨m, by rw [State.writeFields, hm]; rfl⟩

/-- A return changes memory alone and raises CARD_DONE. -/
theorem cardReturn_spec (s : State) (slot : BitVec 5) (tag : Half) (r : Result) (d : Nat) (fs : Fields) :
    ∃ m, s.cardReturn slot tag r d fs = ({ s with mem := m } : State).raise .cardDone := by
  obtain ⟨m, hm⟩ := writeFields_spec (s.write (Mem.slot slot + 4) (u8 r.code ++ u8 d)) slot fs
  exact ⟨_, by unfold State.cardReturn; rw [hm]; rfl⟩

/-- The end of a long operation changes memory, the attention bits and the resource table alone; it clears no bit. -/
theorem complete_spec (s : State) (n : ResourceName) (r : Result) (d : Nat) (fs : Fields) :
    ∃ m a w, s.complete n r d fs = { s with mem := m, attn := { s.attn with bits := s.attn.bits ||| a }, walk := w } := by
  unfold State.complete; split
  · rename_i slot tag _
    obtain ⟨m, hm⟩ := cardReturn_spec (s.setResource n .free) slot tag r d fs
    rw [hm]; cases n <;> exact ⟨_, _, _, rfl⟩
  · cases n
    · exact ⟨s.mem, 0, { s.walk with bayA := .free }, by simp [State.setResource]⟩
    · exact ⟨s.mem, 0, { s.walk with bayB := .free }, by simp [State.setResource]⟩
    · exact ⟨s.mem, 0, { s.walk with park := .free }, by simp [State.setResource]⟩
  · exact ⟨s.mem, 0, s.walk, by simp⟩

/-- Result fields at offset 8 and above leave the head of the slot alone. -/
theorem byte_writeFields_low (s : State) (n) (fs : Fields) (hf : ∀ f ∈ fs, 8 ≤ f.1) (k) (hk : k < Mem.slot n + 8) : (s.writeFields n fs).byte k = s.byte k := by
  induction fs generalizing s with
  | nil => rfl
  | cons f fs ih =>
    rw [State.writeFields, ih _ (fun g hg => hf g (List.mem_cons_of_mem _ hg))]
    have := hf f (List.mem_cons_self)
    exact byte_write_outside _ _ (by omega)

/-- What a slot shows after a return. -/
theorem cardReturn_returned (s : State) (n tag r d) (fs : Fields) (hf : ∀ f ∈ fs, 8 ≤ f.1) : (s.cardReturn n tag r d fs).returned n tag r d s.clock := by
  have e : ∀ k, (s.cardReturn n tag r d fs).byte k =
     ((((((s.write (Mem.slot n + 4) (u8 r.code ++ u8 d)).writeFields n fs).write (Mem.slot n + 2) (u16 tag.toNat)).write (Mem.slot n + 6) (u16 s.clock.toNat)).setOwner n 0).byte k) := by
    intro k; obtain ⟨m, hm⟩ := writeFields_spec (s.write (Mem.slot n + 4) (u8 r.code ++ u8 d)) n fs
    unfold State.cardReturn; simp only [hm]; rfl
  intro f hf' i hi
  simp only [List.mem_cons, List.not_mem_nil, or_false] at hf'
  have o2 : ∀ (u : State) k, k ≠ Mem.slot n → (u.setOwner n 0).byte k = u.byte k := by
    intro u k hk; exact byte_write_outside _ _ (by simp [u8]; omega)
  rcases hf' with rfl | rfl | rfl | rfl | rfl
  · rw [e]; simp [u8] at hi; subst hi
    refine (byte_write_inside _ _ (Nat.le_refl _) ?_).trans ?_ <;> simp [u8]
  all_goals
    rw [e, o2 _ _ (by simp; omega)]
  · simp [u16] at hi
    rw [byte_write_outside _ _ (by simp; omega), byte_write_inside _ _ (by simp) (by simp [u16]; omega)]
    simp
  · simp [u8] at hi
    rw [byte_write_outside _ _ (by simp; omega), byte_write_outside _ _ (by simp [u16]), byte_writeFields_low _ _ _ hf _ (by simp; omega), byte_write_inside _ _ (by simp) (by first | (simp [u8]; done) | (simp [u8]; omega))]
    subst hi; simp [u8]
  · simp [u8] at hi
    rw [byte_write_outside _ _ (by simp; omega), byte_write_outside _ _ (by simp [u16]; omega), byte_writeFields_low _ _ _ hf _ (by simp; omega), byte_write_inside _ _ (by simp; omega) (by simp [u8]; omega)]
    subst hi; simp [u8]
  · simp [u16] at hi
    rw [byte_write_inside _ _ (by simp) (by simp [u16]; omega)]; simp

/-- A return without result fields stores to the head of its slot alone. -/
theorem byte_cardReturn_outside (s : State) (n tag r d) (k) (hk : k < Mem.slot n ∨ Mem.slot n + 8 ≤ k) : (s.cardReturn n tag r d []).byte k = s.byte k := by
  unfold State.cardReturn
  show ((((s.write (Mem.slot n + 4) (u8 r.code ++ u8 d)).write (Mem.slot n + 2) (u16 tag.toNat)).write (Mem.slot n + 6) (u16 s.clock.toNat)).write (Mem.slot n) (u8 0)).byte k = _
  rw [byte_write_outside _ _ (by simp [u8]; omega), byte_write_outside _ _ (by simp [u16]; omega), byte_write_outside _ _ (by simp [u16]; omega), byte_write_outside _ _ (by simp [u8]; omega)]

/-- Two slots do not overlap. -/
theorem slots_apart {m n : BitVec 5} (h : m ≠ n) : Mem.slot m + 64 ≤ Mem.slot n ∨ Mem.slot n + 64 ≤ Mem.slot m := by
  unfold Mem.slot
  have : m.toNat ≠ n.toNat := fun h' => h (BitVec.eq_of_toNat_eq h')
  omega

/-- The orphaning of a resource entry changes the entry, the attention word and memory alone. -/
theorem orphan_eq (s : State) (n) : s.orphan n = { s with walk := (s.setResource n (s.walk.resource n).afterReset).walk, attn := (s.orphan n).attn, mem := (s.orphan n).mem } := by
  unfold State.orphan
  split
  · rename_i slot tag h
    obtain ⟨m, hm⟩ := cardReturn_spec (s.setResource n .orphaned) slot tag .aborted 0 []
    rw [hm, h]; cases n <;> rfl
  · rename_i h; rw [h]; cases n <;> (simp only [Walker.resource] at h; simp [State.setResource, Resource.afterReset, ← h])
  · rename_i h; rw [h]; cases n <;> (simp only [Walker.resource] at h; simp [State.setResource, Resource.afterReset, ← h])

/-- It raises CARD_DONE where the entry was held. -/
theorem orphan_attn (s : State) (n b) : (s.orphan n).attnBit b = (s.attnBit b || (decide (b = .cardDone) && (s.walk.resource n).isHeld)) := by
  unfold State.orphan
  split
  · rename_i slot tag h
    obtain ⟨m, hm⟩ := cardReturn_spec (s.setResource n .orphaned) slot tag .aborted 0 []
    rw [hm, h]; 
    have : ∀ u : State, (u.raise .cardDone).attnBit b = (u.attnBit b || decide (b = .cardDone)) := by
      intro u; unfold State.attnBit State.raise; cases b <;> simp [AttnBit.index, AttnBit.word]
    rw [this]; cases n <;> simp [Resource.isHeld, State.attnBit, State.setResource]
  · rename_i h; simp [h, Resource.isHeld]
  · rename_i h; simp [h, Resource.isHeld]

/-- It stores to the head of the slot that the entry held alone. -/
theorem orphan_byte (s : State) (n a) (h : ∀ slot tag, s.walk.resource n = .held slot tag → a < Mem.slot slot ∨ Mem.slot slot + 8 ≤ a) : (s.orphan n).byte a = s.byte a := by
  unfold State.orphan
  split
  · rename_i slot tag hh; rw [byte_cardReturn_outside _ _ _ _ _ _ (h _ _ hh)]; cases n <;> rfl
  · rfl
  · rfl

/-- It returns the card that the entry held. -/
theorem orphan_ret (s : State) (n slot tag) (h : s.walk.resource n = .held slot tag) : (s.orphan n).returned slot tag .aborted 0 s.clock := by
  unfold State.orphan; rw [h]
  have := cardReturn_returned (s.setResource n .orphaned) slot tag .aborted 0 [] (by simp)
  have hc : (s.setResource n .orphaned).clock = s.clock := by cases n <;> rfl
  rwa [hc] at this

/-! ### Path, ring and zones -/

/-- The change of path state changes the path state, the record and the attention word alone. -/
theorem setPath_spec (s : State) (m t) : ∃ a, s.setPath m t = { s with path := { s.path with mode := m, transfer := t }, attn := a } := by
  unfold State.setPath; obtain ⟨a, h⟩ := raiseIf_spec ({ s with path := { s.path with mode := m, transfer := t } }) (s.path.mode != m) .sourceChange
  exact ⟨a, by rw [h]⟩

/-- The placement of a hold changes the path and the attention word alone. -/
theorem placeHold_spec (s : State) (k) : ∃ p a, s.placeHold k = { s with path := p, attn := a } := by
  unfold State.placeHold; dsimp only; split
  · obtain ⟨a, e⟩ := setPath_spec { s with path := { s.path with holds := s.path.holds.put k true, postImpact := s.holdTimer k } } .paused (some { (‹Transfer›) with settle := none })
    exact ⟨_, a, by rw [e]⟩
  · exact ⟨_, s.attn, rfl⟩

/-- The entry into BROWNOUT ends the transfer, makes the measured load 0 and reports a recompute; beside these it changes the attention
word alone. -/
theorem enterBrownout_spec (s : State) : ∃ a, s.enterBrownout =
    { s with
      path := { s.path with mode := .brownout, transfer := none, measured := 0 }, attn := a, reports := s.reports ++ [.recompute] } := by
  obtain ⟨a, h⟩ := setPath_spec { s with path := { s.path with measured := 0 } } .brownout none
  refine ⟨(({ s with attn := a } : State).raise .brownout).attn, ?_⟩
  unfold State.enterBrownout
  rw [h]
  rfl

/-- A PARK or RELEASE_PARK card that is answered BUSY changes memory alone and raises CARD_DONE. -/
theorem parkBusy_spec (s : State) (slot tag) : ∃ m, s.parkBusy slot tag = ({ s with mem := m } : State).raise .cardDone := by
  obtain ⟨m, h⟩ := cardReturn_spec s.rewriteMotion slot tag .busy 0 []
  refine ⟨m, ?_⟩
  unfold State.parkBusy
  rw [h]
  rfl

/-- The placement of a record changes the classifier, memory and the attention word alone. -/
theorem place_spec (s : State) (r) : ∃ i m a, s.place r = { s with icl := i, mem := m, attn := a } := by
  unfold State.place; dsimp only; split
  · exact ⟨_, _, _, rfl⟩
  · exact ⟨_, _, s.attn, rfl⟩

/-- The thermal bits change the attention word alone. -/
theorem thermalBits_spec (s : State) (o) : ∃ a, s.thermalBits o = { s with attn := a } := by
  unfold State.thermalBits
  obtain ⟨a, h⟩ := raiseIf_spec s (!(o.moved s.therm).isEmpty) .thermalChange
  rw [h]
  obtain ⟨a2, h2⟩ := raiseIf_spec { s with attn := a } s.therm.critical .thermalCritical
  have : ({ s with attn := a } : State).therm = s.therm := rfl
  rw [this, h2]
  obtain ⟨a3, h3⟩ := raiseIf_spec { s with attn := a2 } s.therm.faulted .sensorFault
  exact ⟨a3, by rw [h3]⟩

/-! ### Hand-overs of one sampling, and CHG's request -/

/-- A zone that is put at a free place of a list joins it. -/
theorem insertFree_perm (z : ZoneName) (n : Nat) (l : List ZoneName) : (insertFree z n l).Perm (z :: l) := by
  induction l generalizing n with
  | nil => exact .refl _
  | cons y l ih =>
    unfold insertFree; split
    · exact .refl _
    · exact ((ih (n + 1)).cons y).trans (.swap z y l)

/-- A free order of a list has the members of the list, each as often. -/
theorem freeOrder_perm (n : Nat) (l : List ZoneName) : (freeOrder n l).Perm l := by
  induction l generalizing n with
  | nil => exact .refl _
  | cons z l ih => exact (insertFree_perm z n _).trans ((ih _).cons z)

/-- The setting of CHG's request changes its entry and reports a recompute, unless the evaluation found everything as it was. -/
theorem chgRequest_cases (old : Charger) (s : State) :
    (s.chg.agrees old = true ∧ State.chgRequest old s = s) ∨
    (s.chg.agrees old = false ∧ State.chgRequest old s =
      (s.modEntry 3 (fun e => { e with request := s.chg.request, floor := Config.chargerFloor })).report .recompute) := by
  unfold State.chgRequest
  cases h : s.chg.agrees old
  · exact .inr ⟨rfl, by simp⟩
  · exact .inl ⟨rfl, by simp⟩

/-! ### The end of a step -/

theorem attnWithin_refl (s : State) : s.attnWithin s := fun _ h => h

theorem attnWithin_raise {s u : State} (b) (h : s.attnWithin u) : s.attnWithin (u.raise b) := fun c hc => by rw [attnBit_raise, h c hc, Bool.true_or]

theorem attnWithin_raiseIf {s u : State} (x b) (h : s.attnWithin u) : s.attnWithin (u.raiseIf x b) := by cases x; exact h; exact attnWithin_raise b h

theorem attnWithin_of_eq {s u v : State} (he : v.attn.bits = u.attn.bits) (h : s.attnWithin u) : s.attnWithin v := by
  intro b hb; have := h b hb; unfold State.attnBit at *; rw [he]; exact this

theorem attnWithin_of_or {s u v : State} {a} (he : v.attn.bits = u.attn.bits ||| a) (h : s.attnWithin u) : s.attnWithin v := by
  intro b hb; have := h b hb; unfold State.attnBit at *; rw [he]; simp [this]

theorem attnWithin_complete {s u : State} (n r d fs) (h : s.attnWithin u) : s.attnWithin (u.complete n r d fs) := by
  obtain ⟨m, a, w, e⟩ := complete_spec u n r d fs; exact attnWithin_of_or (a := a) (by rw [e]) h

theorem attnWithin_cardReturn {s u : State} (n t r d fs) (h : s.attnWithin u) : s.attnWithin (u.cardReturn n t r d fs) := by
  obtain ⟨m, e⟩ := cardReturn_spec u n t r d fs; rw [e]; exact attnWithin_raise _ h

theorem attnWithin_setPath {s u : State} (m t) (h : s.attnWithin u) : s.attnWithin (u.setPath m t) := by
  unfold State.setPath; apply attnWithin_raiseIf; exact h

theorem attnWithin_calm (s : State) : Calm (fun u => s.attnWithin u) := by
  constructor
  case raise => intro u b h; exact attnWithin_raise b h
  case complete => intro u n r d fs _ h; exact attnWithin_complete n r d fs h
  case pack => intro u x f h; cases x <;> exact h
  all_goals try (intros; assumption)

theorem attnWithin_keeps (s : State) : Keeps (fun u => s.attnWithin u) (fun _ => True) := by
  apply Keeps.mk
  case toCore =>
    apply Core.mk
    case toCalm => exact attnWithin_calm s
    case bay => intro u x f _ hf h; cases x <;> exact h
    case leave => intro u x st _ _ h; cases x <;> exact h
    all_goals try first | (intros; assumption) | (intros; trivial)
  case release => intro u x _ h; cases x <;> exact h
  case derive => exact fun _ h => (attnWithin_calm s).deriveOf (fun _ h => h) _ h
  case steady => intro u h; exact attnWithin_setPath _ _ h
  case brown => intro u h; exact attnWithin_raise _ (attnWithin_setPath _ _ h)
  case make => intro u t _ h; exact attnWithin_setPath _ _ h
  case again => intro u t _ h; exact attnWithin_setPath _ _ h
  all_goals try first | (intros; assumption) | (intros; trivial)

theorem commit_within {s u : State} (old) (h : s.attnWithin u) : s.attnWithin (State.commit old u) := (attnWithin_keeps s).commit old h

theorem commit_bit {u : State} (old b) (h : u.attnBit b = true) : (State.commit old u).attnBit b = true :=
  (attnWithin_keeps u).commit old (attnWithin_refl u) b h

theorem settle_nil {s : State} (h : s.reports = []) : s.settle = s := by
  have : ∀ n, State.drain n s = s := by intro n; cases n <;> simp [State.drain, h]
  exact this _

theorem commit_nil {old s : State} (h : s.reports = []) : State.commit old s = publishPower old s := by simp [State.commit, settle_nil h]

theorem publish_mem (old s : State) : publishPower old s = { s with mem := (publishPower old s).mem } := by
  unfold publishPower; split <;> rfl

theorem commit_mem {old s : State} (h : s.reports = []) : State.commit old s = { s with mem := (State.commit old s).mem } := by
  rw [commit_nil h]; exact publish_mem old s

/-! ### Bays, token, detector -/

/-- BUDGET's part of a bay's leaving changes the budget's record and the reports alone. -/
theorem dropClaims_spec (s : State) (x : Bay) : ∃ b r, s.dropClaims x = { s with budget := b, reports := r } := by
  unfold State.dropClaims State.dropProjection State.lockAsk
  repeat' split
  all_goals exact ⟨_, _, rfl⟩

/-- A bay that gives up a release tells BUDGET first, and either of BUDGET and PATH first where the loss of its pack is a rescue. -/
theorem leaveRelease_cases (s : State) (x : Bay) (st : BayState) :
    (s.rescuesRelease x st = false ∧ s.leaveRelease x st = (s.dropClaims x).enterBay x st true) ∨
      (s.rescuesRelease x st = true ∧ (s.leaveRelease x st = (s.nextTurn.dropClaims x).enterBay x st true ∨
        s.leaveRelease x st = (s.nextTurn.enterBay x st true).dropClaims x)) := by
  unfold State.leaveRelease
  repeat' split
  · exact .inr ⟨‹_›, .inl rfl⟩
  · exact .inr ⟨‹_›, .inr rfl⟩
  · exact .inl ⟨Bool.eq_false_iff.2 ‹_›, rfl⟩

/-- What a lock grant that is handed over can do. -/
theorem takeLockGrant_cases (s : State) (x : Bay) (g : Nat) :
    ((s.bay x).state = .preparing ∧ s.takeLockGrant x g = s.bayTest x) ∨
      ((s.bay x).state = .released ∧ g < 2400 ∧ (s.bay x).endDeferred = false ∧ s.takeLockGrant x g = s.endWindow x) ∨
      s.takeLockGrant x g = s := by
  unfold State.takeLockGrant
  split
  · exact .inl ⟨‹_›, rfl⟩
  · split
    · rename_i h; simp only [Bool.and_eq_true, decide_eq_true_eq, Bool.not_eq_true'] at h
      exact .inr (.inl ⟨‹_›, h.1, h.2, rfl⟩)
    · exact .inr (.inr rfl)
  all_goals exact .inr (.inr rfl)

/-- A change of the token or of the waiting flag changes the budget's record, the page and the reports alone. -/
theorem setToken_spec (s : State) (t : Token) (w : Bool) :
    ∃ m r, s.setToken t w = { s with budget := { s.budget with token := t, waiting := w }, mem := m, reports := r } := by
  unfold State.setToken; split
  · rename_i h; obtain ⟨rfl, rfl⟩ := h; exact ⟨s.mem, s.reports, rfl⟩
  · exact ⟨_, _, rfl⟩

/-- A park request changes the park and the page alone. -/
theorem parkRequest_spec (s : State) : ∃ p m, s.parkRequest = { s with park := p, mem := m } := by
  have h : ∀ p : Park, ∃ q m, s.setPark p = { s with park := q, mem := m } := fun p => by
    simp only [State.setPark]; split
    · exact ⟨p, s.mem, rfl⟩
    · exact ⟨p, _, rfl⟩
  unfold State.parkRequest
  repeat' split
  all_goals first | exact h _ | exact ⟨s.park, s.mem, rfl⟩

/-- The hand-over of a finished fall: the record and the removal of FREEFALL, in one order or the other. -/
theorem finishFall_cases (s : State) (f : Finished) :
    ∃ u : State, u = { s with turn := u.turn } ∧ (s.finishFall (some f) true = (u.logImpact f).removeHold .freefall ∨
      s.finishFall (some f) true = (u.removeHold .freefall).logImpact f) := by
  unfold State.finishFall
  dsimp only
  repeat' split
  · exact ⟨s.nextTurn, rfl, .inl rfl⟩
  · exact ⟨s.nextTurn, rfl, .inr rfl⟩
  · exact ⟨s, rfl, .inl rfl⟩
  · contradiction

end Sys2Proof.Machine
end

