-- ==== Sys2Proof/Laws/PerInstr.lean ====
section
/-! SUPPORT. Statements about every command as syntax, made command by command. -/

namespace Sys2Proof.Laws

/-- R166. The transfer that a well-formed command is written as opens with one of the four command bytes of section 13.3, unless the command
is UNKNOWN_COMMAND, whose first byte is none of them. A command that does not come over the link is written as no transfer. -/
def TransferOpens.Statement (i : Instr) : Prop :=
  ∀ bytes, wellFormed i = true → encodeTransfer i = some bytes →
    ∃ cmd rest, bytes = cmd :: rest ∧ (knownCommand cmd = true ↔ ∀ c n, i ≠ .unknownCommand c n)

/-- A command without a transfer. -/
theorem TransferOpens.of_none {i : Instr} (h : encodeTransfer i = none) : TransferOpens.Statement i :=
  fun bytes _ he => absurd (h.symm.trans he) (by simp)

/-- A command whose transfer opens with a known command byte. -/
theorem TransferOpens.of_known {i : Instr} {cmd : Byte} {rest : List Byte} (h : encodeTransfer i = some (cmd :: rest))
    (hk : knownCommand cmd = true) (hi : ∀ c n, i ≠ .unknownCommand c n) : TransferOpens.Statement i :=
  fun _ _ he => ⟨cmd, rest, (Option.some.inj (h.symm.trans he)).symm, fun _ => hi, fun _ => hk⟩

theorem TransferOpens.powerOnReset (pins : Pins) : Statement (.powerOnReset pins) := of_none rfl
theorem TransferOpens.hrstChange (low : Bool) : Statement (.hrstChange low) := of_none rfl
theorem TransferOpens.hrstDeglitchExpiry : Statement .hrstDeglitchExpiry := of_none rfl
theorem TransferOpens.psLineChange (ps0 ps1 : Bool) : Statement (.psLineChange ps0 ps1) := of_none rfl
theorem TransferOpens.psDeglitchExpiry : Statement .psDeglitchExpiry := of_none rfl
theorem TransferOpens.senseSample (inlet packA packB : Reading) : Statement (.senseSample inlet packA packB) := of_none rfl
theorem TransferOpens.comparatorTrip (src : Source) (above : Bool) : Statement (.comparatorTrip src above) := of_none rfl
theorem TransferOpens.inSettleExpiry (adpId : Nat) : Statement (.inSettleExpiry adpId) := of_none rfl
theorem TransferOpens.transferSettleExpiry : Statement .transferSettleExpiry := of_none rfl
theorem TransferOpens.postImpactExpiry : Statement .postImpactExpiry := of_none rfl
theorem TransferOpens.gaugeAttemptDone (bay : Bay) (value : Half) (alarms : Alarms) : Statement (.gaugeAttemptDone bay value alarms) := of_none rfl
theorem TransferOpens.gaugeAttemptNak (bay : Bay) : Statement (.gaugeAttemptNak bay) := of_none rfl
theorem TransferOpens.gaugeAttemptTimeout (bay : Bay) : Statement (.gaugeAttemptTimeout bay) := of_none rfl
theorem TransferOpens.pollIntervalExpiry (bay : Bay) : Statement (.pollIntervalExpiry bay) := of_none rfl
theorem TransferOpens.contactChange (bay : Bay) (closed : Bool) : Statement (.contactChange bay closed) := of_none rfl
theorem TransferOpens.removalConfirmExpiry (bay : Bay) : Statement (.removalConfirmExpiry bay) := of_none rfl
theorem TransferOpens.baySettleExpiry (bay : Bay) : Statement (.baySettleExpiry bay) := of_none rfl
theorem TransferOpens.buttonChange (bay : Bay) (pressed : Bool) : Statement (.buttonChange bay pressed) := of_none rfl
theorem TransferOpens.buttonDebounceExpiry (bay : Bay) : Statement (.buttonDebounceExpiry bay) := of_none rfl
theorem TransferOpens.prepareLimitExpiry (bay : Bay) : Statement (.prepareLimitExpiry bay) := of_none rfl
theorem TransferOpens.releaseWindowExpiry (bay : Bay) : Statement (.releaseWindowExpiry bay) := of_none rfl
theorem TransferOpens.risingSettleExpiry : Statement .risingSettleExpiry := of_none rfl
theorem TransferOpens.fallingSettleExpiry : Statement .fallingSettleExpiry := of_none rfl
theorem TransferOpens.thermistorSampling (panel charger enclosure : Int) : Statement (.thermistorSampling panel charger enclosure) := of_none rfl
theorem TransferOpens.lightStartDone : Statement .lightStartDone := of_none rfl
theorem TransferOpens.integrationExpiry : Statement .integrationExpiry := of_none rfl
theorem TransferOpens.lightReadDone (c i : Half) : Statement (.lightReadDone c i) := of_none rfl
theorem TransferOpens.lightTransactionNak : Statement .lightTransactionNak := of_none rfl
theorem TransferOpens.lightTransactionTimeout : Statement .lightTransactionTimeout := of_none rfl
theorem TransferOpens.lightWaitExpiry : Statement .lightWaitExpiry := of_none rfl
theorem TransferOpens.lightIdleDone : Statement .lightIdleDone := of_none rfl
theorem TransferOpens.lightFaultTimerExpiry : Statement .lightFaultTimerExpiry := of_none rfl
theorem TransferOpens.slewTick : Statement .slewTick := of_none rfl
theorem TransferOpens.tokenReleaseExpiry : Statement .tokenReleaseExpiry := of_none rfl
theorem TransferOpens.motionReadTick : Statement .motionReadTick := of_none rfl
theorem TransferOpens.motionReadDone (seq : Byte) (x y z : Half) : Statement (.motionReadDone seq x y z) := of_none rfl
theorem TransferOpens.motionStallExpiry : Statement .motionStallExpiry := of_none rfl
theorem TransferOpens.parkAckChange (asserted : Bool) : Statement (.parkAckChange asserted) := of_none rfl
theorem TransferOpens.ackTimerExpiry : Statement .ackTimerExpiry := of_none rfl
theorem TransferOpens.motionPageTick : Statement .motionPageTick := of_none rfl
theorem TransferOpens.msClockTick : Statement .msClockTick := of_none rfl
theorem TransferOpens.secondsTick : Statement .secondsTick := of_none rfl

theorem TransferOpens.memoryRead (addr : Option Half) (count : Nat) : Statement (.memoryRead addr count) :=
  of_known rfl (by decide) (by intros; simp)

theorem TransferOpens.memoryWrite (addr : Option Half) (data : List Byte) : Statement (.memoryWrite addr data) :=
  of_known rfl (by decide) (by intros; simp)

theorem TransferOpens.registerRead (addr : Option Half) (count : Nat) : Statement (.registerRead addr count) :=
  of_known rfl (by decide) (by intros; simp)

theorem TransferOpens.registerWrite (addr : Option Half) (data : List Byte) (supply : Supply) : Statement (.registerWrite addr data supply) :=
  of_known rfl (by decide) (by intros; simp)

theorem TransferOpens.unknownCommand (cmd : Byte) (count : Nat) : Statement (.unknownCommand cmd count) := by
  intro bytes hw he
  refine ⟨cmd, List.replicate count 0, (Option.some.inj he).symm, ?_⟩
  have hk : knownCommand cmd = false := by simpa [wellFormed] using hw
  rw [hk]
  exact ⟨fun h => absurd h (by simp), fun h => absurd rfl (h cmd count)⟩

theorem TransferOpens.attnWrite (value : Half) : Statement (.attnWrite value) :=
  of_known rfl (by decide) (by intros; simp)

theorem TransferOpens.maskWrite (value : Half) : Statement (.maskWrite value) :=
  of_known rfl (by decide) (by intros; simp)

theorem TransferOpens.controlRun (value : Half) (supply : Supply) : Statement (.controlRun value supply) :=
  of_known rfl (by decide) (by intros; simp)

theorem TransferOpens.controlRecheck (value : Half) (supply : Supply) : Statement (.controlRecheck value supply) :=
  of_known rfl (by decide) (by intros; simp)

theorem TransferOpens.softReset (value : Half) : Statement (.softReset value) :=
  of_known rfl (by decide) (by intros; simp)

theorem TransferOpens.nudge (value : Half) (supply : Supply) : Statement (.nudge value supply) :=
  of_known rfl (by decide) (by intros; simp)

theorem TransferOpens.recheckExpiry (supply : Supply) : Statement (.recheckExpiry supply) := of_none rfl
theorem TransferOpens.setPanel : Statement .setPanel := of_none rfl
theorem TransferOpens.setCurve : Statement .setCurve := of_none rfl
theorem TransferOpens.setBrightness : Statement .setBrightness := of_none rfl
theorem TransferOpens.setLight : Statement .setLight := of_none rfl
theorem TransferOpens.setLoad : Statement .setLoad := of_none rfl
theorem TransferOpens.setBaseLoad : Statement .setBaseLoad := of_none rfl
theorem TransferOpens.setPowerPolicy : Statement .setPowerPolicy := of_none rfl
theorem TransferOpens.setSourceTrip (supply : Supply) : Statement (.setSourceTrip supply) := of_none rfl
theorem TransferOpens.setCharge : Statement .setCharge := of_none rfl
theorem TransferOpens.setThermal : Statement .setThermal := of_none rfl
theorem TransferOpens.setMotion : Statement .setMotion := of_none rfl
theorem TransferOpens.setClassifier : Statement .setClassifier := of_none rfl
theorem TransferOpens.setHold : Statement .setHold := of_none rfl
theorem TransferOpens.setGauge : Statement .setGauge := of_none rfl
theorem TransferOpens.releaseBay : Statement .releaseBay := of_none rfl
theorem TransferOpens.identifyPack : Statement .identifyPack := of_none rfl
theorem TransferOpens.park : Statement .park := of_none rfl
theorem TransferOpens.releasePark : Statement .releasePark := of_none rfl
theorem TransferOpens.unknownKindCard : Statement .unknownKindCard := of_none rfl

end Sys2Proof.Laws
end

