-- ==== Sys2Proof/Laws/State.lean ====
section
/-! SUPPORT. One lemma for each field that a named update leaves alone, and what each update gives the field that it changes, so that no
later proof unfolds a record update. -/

namespace Sys2Proof.Machine

/-! ### `State.write` -/

@[simp] theorem State.write_pending (s : State) (base : Nat) (bs : List Byte) : (s.write base bs).pending = s.pending := rfl
@[simp] theorem State.write_clock (s : State) (base : Nat) (bs : List Byte) : (s.write base bs).clock = s.clock := rfl
@[simp] theorem State.write_seconds (s : State) (base : Nat) (bs : List Byte) : (s.write base bs).seconds = s.seconds := rfl
@[simp] theorem State.write_smon (s : State) (base : Nat) (bs : List Byte) : (s.write base bs).smon = s.smon := rfl
@[simp] theorem State.write_path (s : State) (base : Nat) (bs : List Byte) : (s.write base bs).path = s.path := rfl
@[simp] theorem State.write_glu (s : State) (base : Nat) (bs : List Byte) : (s.write base bs).glu = s.glu := rfl
@[simp] theorem State.write_bayc (s : State) (base : Nat) (bs : List Byte) : (s.write base bs).bayc = s.bayc := rfl
@[simp] theorem State.write_budget (s : State) (base : Nat) (bs : List Byte) : (s.write base bs).budget = s.budget := rfl
@[simp] theorem State.write_chg (s : State) (base : Nat) (bs : List Byte) : (s.write base bs).chg = s.chg := rfl
@[simp] theorem State.write_therm (s : State) (base : Nat) (bs : List Byte) : (s.write base bs).therm = s.therm := rfl
@[simp] theorem State.write_als (s : State) (base : Nat) (bs : List Byte) : (s.write base bs).als = s.als := rfl
@[simp] theorem State.write_bld (s : State) (base : Nat) (bs : List Byte) : (s.write base bs).bld = s.bld := rfl
@[simp] theorem State.write_mot (s : State) (base : Nat) (bs : List Byte) : (s.write base bs).mot = s.mot := rfl
@[simp] theorem State.write_park (s : State) (base : Nat) (bs : List Byte) : (s.write base bs).park = s.park := rfl
@[simp] theorem State.write_icl (s : State) (base : Nat) (bs : List Byte) : (s.write base bs).icl = s.icl := rfl
@[simp] theorem State.write_walk (s : State) (base : Nat) (bs : List Byte) : (s.write base bs).walk = s.walk := rfl
@[simp] theorem State.write_attn (s : State) (base : Nat) (bs : List Byte) : (s.write base bs).attn = s.attn := rfl
@[simp] theorem State.write_psd (s : State) (base : Nat) (bs : List Byte) : (s.write base bs).psd = s.psd := rfl
@[simp] theorem State.write_miso (s : State) (base : Nat) (bs : List Byte) : (s.write base bs).miso = s.miso := rfl
@[simp] theorem State.write_reports (s : State) (base : Nat) (bs : List Byte) : (s.write base bs).reports = s.reports := rfl
@[simp] theorem State.write_turn (s : State) (base : Nat) (bs : List Byte) : (s.write base bs).turn = s.turn := rfl

/-! ### `State.report` -/

@[simp] theorem State.report_pending (s : State) (r : Report) : (s.report r).pending = s.pending := rfl
@[simp] theorem State.report_clock (s : State) (r : Report) : (s.report r).clock = s.clock := rfl
@[simp] theorem State.report_seconds (s : State) (r : Report) : (s.report r).seconds = s.seconds := rfl
@[simp] theorem State.report_smon (s : State) (r : Report) : (s.report r).smon = s.smon := rfl
@[simp] theorem State.report_path (s : State) (r : Report) : (s.report r).path = s.path := rfl
@[simp] theorem State.report_glu (s : State) (r : Report) : (s.report r).glu = s.glu := rfl
@[simp] theorem State.report_bayc (s : State) (r : Report) : (s.report r).bayc = s.bayc := rfl
@[simp] theorem State.report_budget (s : State) (r : Report) : (s.report r).budget = s.budget := rfl
@[simp] theorem State.report_chg (s : State) (r : Report) : (s.report r).chg = s.chg := rfl
@[simp] theorem State.report_therm (s : State) (r : Report) : (s.report r).therm = s.therm := rfl
@[simp] theorem State.report_als (s : State) (r : Report) : (s.report r).als = s.als := rfl
@[simp] theorem State.report_bld (s : State) (r : Report) : (s.report r).bld = s.bld := rfl
@[simp] theorem State.report_mot (s : State) (r : Report) : (s.report r).mot = s.mot := rfl
@[simp] theorem State.report_park (s : State) (r : Report) : (s.report r).park = s.park := rfl
@[simp] theorem State.report_icl (s : State) (r : Report) : (s.report r).icl = s.icl := rfl
@[simp] theorem State.report_walk (s : State) (r : Report) : (s.report r).walk = s.walk := rfl
@[simp] theorem State.report_attn (s : State) (r : Report) : (s.report r).attn = s.attn := rfl
@[simp] theorem State.report_psd (s : State) (r : Report) : (s.report r).psd = s.psd := rfl
@[simp] theorem State.report_mem (s : State) (r : Report) : (s.report r).mem = s.mem := rfl
@[simp] theorem State.report_miso (s : State) (r : Report) : (s.report r).miso = s.miso := rfl
@[simp] theorem State.report_turn (s : State) (r : Report) : (s.report r).turn = s.turn := rfl

/-! ### `State.reportFirst` -/

@[simp] theorem State.reportFirst_pending (s : State) (r : Report) : (s.reportFirst r).pending = s.pending := rfl
@[simp] theorem State.reportFirst_clock (s : State) (r : Report) : (s.reportFirst r).clock = s.clock := rfl
@[simp] theorem State.reportFirst_seconds (s : State) (r : Report) : (s.reportFirst r).seconds = s.seconds := rfl
@[simp] theorem State.reportFirst_smon (s : State) (r : Report) : (s.reportFirst r).smon = s.smon := rfl
@[simp] theorem State.reportFirst_path (s : State) (r : Report) : (s.reportFirst r).path = s.path := rfl
@[simp] theorem State.reportFirst_glu (s : State) (r : Report) : (s.reportFirst r).glu = s.glu := rfl
@[simp] theorem State.reportFirst_bayc (s : State) (r : Report) : (s.reportFirst r).bayc = s.bayc := rfl
@[simp] theorem State.reportFirst_budget (s : State) (r : Report) : (s.reportFirst r).budget = s.budget := rfl
@[simp] theorem State.reportFirst_chg (s : State) (r : Report) : (s.reportFirst r).chg = s.chg := rfl
@[simp] theorem State.reportFirst_therm (s : State) (r : Report) : (s.reportFirst r).therm = s.therm := rfl
@[simp] theorem State.reportFirst_als (s : State) (r : Report) : (s.reportFirst r).als = s.als := rfl
@[simp] theorem State.reportFirst_bld (s : State) (r : Report) : (s.reportFirst r).bld = s.bld := rfl
@[simp] theorem State.reportFirst_mot (s : State) (r : Report) : (s.reportFirst r).mot = s.mot := rfl
@[simp] theorem State.reportFirst_park (s : State) (r : Report) : (s.reportFirst r).park = s.park := rfl
@[simp] theorem State.reportFirst_icl (s : State) (r : Report) : (s.reportFirst r).icl = s.icl := rfl
@[simp] theorem State.reportFirst_walk (s : State) (r : Report) : (s.reportFirst r).walk = s.walk := rfl
@[simp] theorem State.reportFirst_attn (s : State) (r : Report) : (s.reportFirst r).attn = s.attn := rfl
@[simp] theorem State.reportFirst_psd (s : State) (r : Report) : (s.reportFirst r).psd = s.psd := rfl
@[simp] theorem State.reportFirst_mem (s : State) (r : Report) : (s.reportFirst r).mem = s.mem := rfl
@[simp] theorem State.reportFirst_miso (s : State) (r : Report) : (s.reportFirst r).miso = s.miso := rfl
@[simp] theorem State.reportFirst_turn (s : State) (r : Report) : (s.reportFirst r).turn = s.turn := rfl
@[simp] theorem State.reportFirst_reports (s : State) (r : Report) : (s.reportFirst r).reports = r :: s.reports := rfl

/-! ### `State.nextTurn` -/

@[simp] theorem State.nextTurn_pending (s : State) : (s.nextTurn).pending = s.pending := rfl
@[simp] theorem State.nextTurn_clock (s : State) : (s.nextTurn).clock = s.clock := rfl
@[simp] theorem State.nextTurn_seconds (s : State) : (s.nextTurn).seconds = s.seconds := rfl
@[simp] theorem State.nextTurn_smon (s : State) : (s.nextTurn).smon = s.smon := rfl
@[simp] theorem State.nextTurn_path (s : State) : (s.nextTurn).path = s.path := rfl
@[simp] theorem State.nextTurn_glu (s : State) : (s.nextTurn).glu = s.glu := rfl
@[simp] theorem State.nextTurn_bayc (s : State) : (s.nextTurn).bayc = s.bayc := rfl
@[simp] theorem State.nextTurn_budget (s : State) : (s.nextTurn).budget = s.budget := rfl
@[simp] theorem State.nextTurn_chg (s : State) : (s.nextTurn).chg = s.chg := rfl
@[simp] theorem State.nextTurn_therm (s : State) : (s.nextTurn).therm = s.therm := rfl
@[simp] theorem State.nextTurn_als (s : State) : (s.nextTurn).als = s.als := rfl
@[simp] theorem State.nextTurn_bld (s : State) : (s.nextTurn).bld = s.bld := rfl
@[simp] theorem State.nextTurn_mot (s : State) : (s.nextTurn).mot = s.mot := rfl
@[simp] theorem State.nextTurn_park (s : State) : (s.nextTurn).park = s.park := rfl
@[simp] theorem State.nextTurn_icl (s : State) : (s.nextTurn).icl = s.icl := rfl
@[simp] theorem State.nextTurn_walk (s : State) : (s.nextTurn).walk = s.walk := rfl
@[simp] theorem State.nextTurn_attn (s : State) : (s.nextTurn).attn = s.attn := rfl
@[simp] theorem State.nextTurn_psd (s : State) : (s.nextTurn).psd = s.psd := rfl
@[simp] theorem State.nextTurn_mem (s : State) : (s.nextTurn).mem = s.mem := rfl
@[simp] theorem State.nextTurn_miso (s : State) : (s.nextTurn).miso = s.miso := rfl
@[simp] theorem State.nextTurn_reports (s : State) : (s.nextTurn).reports = s.reports := rfl

/-! ### `State.raise` -/

@[simp] theorem State.raise_pending (s : State) (b : AttnBit) : (s.raise b).pending = s.pending := rfl
@[simp] theorem State.raise_clock (s : State) (b : AttnBit) : (s.raise b).clock = s.clock := rfl
@[simp] theorem State.raise_seconds (s : State) (b : AttnBit) : (s.raise b).seconds = s.seconds := rfl
@[simp] theorem State.raise_smon (s : State) (b : AttnBit) : (s.raise b).smon = s.smon := rfl
@[simp] theorem State.raise_path (s : State) (b : AttnBit) : (s.raise b).path = s.path := rfl
@[simp] theorem State.raise_glu (s : State) (b : AttnBit) : (s.raise b).glu = s.glu := rfl
@[simp] theorem State.raise_bayc (s : State) (b : AttnBit) : (s.raise b).bayc = s.bayc := rfl
@[simp] theorem State.raise_budget (s : State) (b : AttnBit) : (s.raise b).budget = s.budget := rfl
@[simp] theorem State.raise_chg (s : State) (b : AttnBit) : (s.raise b).chg = s.chg := rfl
@[simp] theorem State.raise_therm (s : State) (b : AttnBit) : (s.raise b).therm = s.therm := rfl
@[simp] theorem State.raise_als (s : State) (b : AttnBit) : (s.raise b).als = s.als := rfl
@[simp] theorem State.raise_bld (s : State) (b : AttnBit) : (s.raise b).bld = s.bld := rfl
@[simp] theorem State.raise_mot (s : State) (b : AttnBit) : (s.raise b).mot = s.mot := rfl
@[simp] theorem State.raise_park (s : State) (b : AttnBit) : (s.raise b).park = s.park := rfl
@[simp] theorem State.raise_icl (s : State) (b : AttnBit) : (s.raise b).icl = s.icl := rfl
@[simp] theorem State.raise_walk (s : State) (b : AttnBit) : (s.raise b).walk = s.walk := rfl
@[simp] theorem State.raise_psd (s : State) (b : AttnBit) : (s.raise b).psd = s.psd := rfl
@[simp] theorem State.raise_mem (s : State) (b : AttnBit) : (s.raise b).mem = s.mem := rfl
@[simp] theorem State.raise_miso (s : State) (b : AttnBit) : (s.raise b).miso = s.miso := rfl
@[simp] theorem State.raise_reports (s : State) (b : AttnBit) : (s.raise b).reports = s.reports := rfl
@[simp] theorem State.raise_turn (s : State) (b : AttnBit) : (s.raise b).turn = s.turn := rfl

/-! ### `State.raiseIf` -/

@[simp] theorem State.raiseIf_pending (s : State) (c : Bool) (b : AttnBit) : (s.raiseIf c b).pending = s.pending := by cases c <;> rfl
@[simp] theorem State.raiseIf_clock (s : State) (c : Bool) (b : AttnBit) : (s.raiseIf c b).clock = s.clock := by cases c <;> rfl
@[simp] theorem State.raiseIf_seconds (s : State) (c : Bool) (b : AttnBit) : (s.raiseIf c b).seconds = s.seconds := by cases c <;> rfl
@[simp] theorem State.raiseIf_smon (s : State) (c : Bool) (b : AttnBit) : (s.raiseIf c b).smon = s.smon := by cases c <;> rfl
@[simp] theorem State.raiseIf_path (s : State) (c : Bool) (b : AttnBit) : (s.raiseIf c b).path = s.path := by cases c <;> rfl
@[simp] theorem State.raiseIf_glu (s : State) (c : Bool) (b : AttnBit) : (s.raiseIf c b).glu = s.glu := by cases c <;> rfl
@[simp] theorem State.raiseIf_bayc (s : State) (c : Bool) (b : AttnBit) : (s.raiseIf c b).bayc = s.bayc := by cases c <;> rfl
@[simp] theorem State.raiseIf_budget (s : State) (c : Bool) (b : AttnBit) : (s.raiseIf c b).budget = s.budget := by cases c <;> rfl
@[simp] theorem State.raiseIf_chg (s : State) (c : Bool) (b : AttnBit) : (s.raiseIf c b).chg = s.chg := by cases c <;> rfl
@[simp] theorem State.raiseIf_therm (s : State) (c : Bool) (b : AttnBit) : (s.raiseIf c b).therm = s.therm := by cases c <;> rfl
@[simp] theorem State.raiseIf_als (s : State) (c : Bool) (b : AttnBit) : (s.raiseIf c b).als = s.als := by cases c <;> rfl
@[simp] theorem State.raiseIf_bld (s : State) (c : Bool) (b : AttnBit) : (s.raiseIf c b).bld = s.bld := by cases c <;> rfl
@[simp] theorem State.raiseIf_mot (s : State) (c : Bool) (b : AttnBit) : (s.raiseIf c b).mot = s.mot := by cases c <;> rfl
@[simp] theorem State.raiseIf_park (s : State) (c : Bool) (b : AttnBit) : (s.raiseIf c b).park = s.park := by cases c <;> rfl
@[simp] theorem State.raiseIf_icl (s : State) (c : Bool) (b : AttnBit) : (s.raiseIf c b).icl = s.icl := by cases c <;> rfl
@[simp] theorem State.raiseIf_walk (s : State) (c : Bool) (b : AttnBit) : (s.raiseIf c b).walk = s.walk := by cases c <;> rfl
@[simp] theorem State.raiseIf_psd (s : State) (c : Bool) (b : AttnBit) : (s.raiseIf c b).psd = s.psd := by cases c <;> rfl
@[simp] theorem State.raiseIf_mem (s : State) (c : Bool) (b : AttnBit) : (s.raiseIf c b).mem = s.mem := by cases c <;> rfl
@[simp] theorem State.raiseIf_miso (s : State) (c : Bool) (b : AttnBit) : (s.raiseIf c b).miso = s.miso := by cases c <;> rfl
@[simp] theorem State.raiseIf_reports (s : State) (c : Bool) (b : AttnBit) : (s.raiseIf c b).reports = s.reports := by cases c <;> rfl
@[simp] theorem State.raiseIf_turn (s : State) (c : Bool) (b : AttnBit) : (s.raiseIf c b).turn = s.turn := by cases c <;> rfl

/-! ### `State.setBayRec` -/

@[simp] theorem State.setBayRec_pending (s : State) (x : Bay) (r : BayRecord) : (s.setBayRec x r).pending = s.pending := by cases x <;> rfl
@[simp] theorem State.setBayRec_clock (s : State) (x : Bay) (r : BayRecord) : (s.setBayRec x r).clock = s.clock := by cases x <;> rfl
@[simp] theorem State.setBayRec_seconds (s : State) (x : Bay) (r : BayRecord) : (s.setBayRec x r).seconds = s.seconds := by cases x <;> rfl
@[simp] theorem State.setBayRec_smon (s : State) (x : Bay) (r : BayRecord) : (s.setBayRec x r).smon = s.smon := by cases x <;> rfl
@[simp] theorem State.setBayRec_path (s : State) (x : Bay) (r : BayRecord) : (s.setBayRec x r).path = s.path := by cases x <;> rfl
@[simp] theorem State.setBayRec_glu (s : State) (x : Bay) (r : BayRecord) : (s.setBayRec x r).glu = s.glu := by cases x <;> rfl
@[simp] theorem State.setBayRec_budget (s : State) (x : Bay) (r : BayRecord) : (s.setBayRec x r).budget = s.budget := by cases x <;> rfl
@[simp] theorem State.setBayRec_chg (s : State) (x : Bay) (r : BayRecord) : (s.setBayRec x r).chg = s.chg := by cases x <;> rfl
@[simp] theorem State.setBayRec_therm (s : State) (x : Bay) (r : BayRecord) : (s.setBayRec x r).therm = s.therm := by cases x <;> rfl
@[simp] theorem State.setBayRec_als (s : State) (x : Bay) (r : BayRecord) : (s.setBayRec x r).als = s.als := by cases x <;> rfl
@[simp] theorem State.setBayRec_bld (s : State) (x : Bay) (r : BayRecord) : (s.setBayRec x r).bld = s.bld := by cases x <;> rfl
@[simp] theorem State.setBayRec_mot (s : State) (x : Bay) (r : BayRecord) : (s.setBayRec x r).mot = s.mot := by cases x <;> rfl
@[simp] theorem State.setBayRec_park (s : State) (x : Bay) (r : BayRecord) : (s.setBayRec x r).park = s.park := by cases x <;> rfl
@[simp] theorem State.setBayRec_icl (s : State) (x : Bay) (r : BayRecord) : (s.setBayRec x r).icl = s.icl := by cases x <;> rfl
@[simp] theorem State.setBayRec_walk (s : State) (x : Bay) (r : BayRecord) : (s.setBayRec x r).walk = s.walk := by cases x <;> rfl
@[simp] theorem State.setBayRec_attn (s : State) (x : Bay) (r : BayRecord) : (s.setBayRec x r).attn = s.attn := by cases x <;> rfl
@[simp] theorem State.setBayRec_psd (s : State) (x : Bay) (r : BayRecord) : (s.setBayRec x r).psd = s.psd := by cases x <;> rfl
@[simp] theorem State.setBayRec_mem (s : State) (x : Bay) (r : BayRecord) : (s.setBayRec x r).mem = s.mem := by cases x <;> rfl
@[simp] theorem State.setBayRec_miso (s : State) (x : Bay) (r : BayRecord) : (s.setBayRec x r).miso = s.miso := by cases x <;> rfl
@[simp] theorem State.setBayRec_reports (s : State) (x : Bay) (r : BayRecord) : (s.setBayRec x r).reports = s.reports := by cases x <;> rfl
@[simp] theorem State.setBayRec_turn (s : State) (x : Bay) (r : BayRecord) : (s.setBayRec x r).turn = s.turn := by cases x <;> rfl

/-! ### `State.setPack` -/

@[simp] theorem State.setPack_pending (s : State) (x : Bay) (r : PackRecord) : (s.setPack x r).pending = s.pending := by cases x <;> rfl
@[simp] theorem State.setPack_clock (s : State) (x : Bay) (r : PackRecord) : (s.setPack x r).clock = s.clock := by cases x <;> rfl
@[simp] theorem State.setPack_seconds (s : State) (x : Bay) (r : PackRecord) : (s.setPack x r).seconds = s.seconds := by cases x <;> rfl
@[simp] theorem State.setPack_smon (s : State) (x : Bay) (r : PackRecord) : (s.setPack x r).smon = s.smon := by cases x <;> rfl
@[simp] theorem State.setPack_path (s : State) (x : Bay) (r : PackRecord) : (s.setPack x r).path = s.path := by cases x <;> rfl
@[simp] theorem State.setPack_bayc (s : State) (x : Bay) (r : PackRecord) : (s.setPack x r).bayc = s.bayc := by cases x <;> rfl
@[simp] theorem State.setPack_budget (s : State) (x : Bay) (r : PackRecord) : (s.setPack x r).budget = s.budget := by cases x <;> rfl
@[simp] theorem State.setPack_chg (s : State) (x : Bay) (r : PackRecord) : (s.setPack x r).chg = s.chg := by cases x <;> rfl
@[simp] theorem State.setPack_therm (s : State) (x : Bay) (r : PackRecord) : (s.setPack x r).therm = s.therm := by cases x <;> rfl
@[simp] theorem State.setPack_als (s : State) (x : Bay) (r : PackRecord) : (s.setPack x r).als = s.als := by cases x <;> rfl
@[simp] theorem State.setPack_bld (s : State) (x : Bay) (r : PackRecord) : (s.setPack x r).bld = s.bld := by cases x <;> rfl
@[simp] theorem State.setPack_mot (s : State) (x : Bay) (r : PackRecord) : (s.setPack x r).mot = s.mot := by cases x <;> rfl
@[simp] theorem State.setPack_park (s : State) (x : Bay) (r : PackRecord) : (s.setPack x r).park = s.park := by cases x <;> rfl
@[simp] theorem State.setPack_icl (s : State) (x : Bay) (r : PackRecord) : (s.setPack x r).icl = s.icl := by cases x <;> rfl
@[simp] theorem State.setPack_walk (s : State) (x : Bay) (r : PackRecord) : (s.setPack x r).walk = s.walk := by cases x <;> rfl
@[simp] theorem State.setPack_attn (s : State) (x : Bay) (r : PackRecord) : (s.setPack x r).attn = s.attn := by cases x <;> rfl
@[simp] theorem State.setPack_psd (s : State) (x : Bay) (r : PackRecord) : (s.setPack x r).psd = s.psd := by cases x <;> rfl
@[simp] theorem State.setPack_mem (s : State) (x : Bay) (r : PackRecord) : (s.setPack x r).mem = s.mem := by cases x <;> rfl
@[simp] theorem State.setPack_miso (s : State) (x : Bay) (r : PackRecord) : (s.setPack x r).miso = s.miso := by cases x <;> rfl
@[simp] theorem State.setPack_reports (s : State) (x : Bay) (r : PackRecord) : (s.setPack x r).reports = s.reports := by cases x <;> rfl
@[simp] theorem State.setPack_turn (s : State) (x : Bay) (r : PackRecord) : (s.setPack x r).turn = s.turn := by cases x <;> rfl

/-! ### `State.setSource` -/

@[simp] theorem State.setSource_pending (s : State) (x : Source) (e : SourceEntry) : (s.setSource x e).pending = s.pending := by cases x <;> rfl
@[simp] theorem State.setSource_clock (s : State) (x : Source) (e : SourceEntry) : (s.setSource x e).clock = s.clock := by cases x <;> rfl
@[simp] theorem State.setSource_seconds (s : State) (x : Source) (e : SourceEntry) : (s.setSource x e).seconds = s.seconds := by cases x <;> rfl
@[simp] theorem State.setSource_path (s : State) (x : Source) (e : SourceEntry) : (s.setSource x e).path = s.path := by cases x <;> rfl
@[simp] theorem State.setSource_glu (s : State) (x : Source) (e : SourceEntry) : (s.setSource x e).glu = s.glu := by cases x <;> rfl
@[simp] theorem State.setSource_bayc (s : State) (x : Source) (e : SourceEntry) : (s.setSource x e).bayc = s.bayc := by cases x <;> rfl
@[simp] theorem State.setSource_budget (s : State) (x : Source) (e : SourceEntry) : (s.setSource x e).budget = s.budget := by cases x <;> rfl
@[simp] theorem State.setSource_chg (s : State) (x : Source) (e : SourceEntry) : (s.setSource x e).chg = s.chg := by cases x <;> rfl
@[simp] theorem State.setSource_therm (s : State) (x : Source) (e : SourceEntry) : (s.setSource x e).therm = s.therm := by cases x <;> rfl
@[simp] theorem State.setSource_als (s : State) (x : Source) (e : SourceEntry) : (s.setSource x e).als = s.als := by cases x <;> rfl
@[simp] theorem State.setSource_bld (s : State) (x : Source) (e : SourceEntry) : (s.setSource x e).bld = s.bld := by cases x <;> rfl
@[simp] theorem State.setSource_mot (s : State) (x : Source) (e : SourceEntry) : (s.setSource x e).mot = s.mot := by cases x <;> rfl
@[simp] theorem State.setSource_park (s : State) (x : Source) (e : SourceEntry) : (s.setSource x e).park = s.park := by cases x <;> rfl
@[simp] theorem State.setSource_icl (s : State) (x : Source) (e : SourceEntry) : (s.setSource x e).icl = s.icl := by cases x <;> rfl
@[simp] theorem State.setSource_walk (s : State) (x : Source) (e : SourceEntry) : (s.setSource x e).walk = s.walk := by cases x <;> rfl
@[simp] theorem State.setSource_attn (s : State) (x : Source) (e : SourceEntry) : (s.setSource x e).attn = s.attn := by cases x <;> rfl
@[simp] theorem State.setSource_psd (s : State) (x : Source) (e : SourceEntry) : (s.setSource x e).psd = s.psd := by cases x <;> rfl
@[simp] theorem State.setSource_mem (s : State) (x : Source) (e : SourceEntry) : (s.setSource x e).mem = s.mem := by cases x <;> rfl
@[simp] theorem State.setSource_miso (s : State) (x : Source) (e : SourceEntry) : (s.setSource x e).miso = s.miso := by cases x <;> rfl
@[simp] theorem State.setSource_reports (s : State) (x : Source) (e : SourceEntry) : (s.setSource x e).reports = s.reports := by cases x <;> rfl
@[simp] theorem State.setSource_turn (s : State) (x : Source) (e : SourceEntry) : (s.setSource x e).turn = s.turn := by cases x <;> rfl

/-! ### `State.modEntry` -/

@[simp] theorem State.modEntry_pending (s : State) (i : Nat) (f : Entry → Entry) : (s.modEntry i f).pending = s.pending := rfl
@[simp] theorem State.modEntry_clock (s : State) (i : Nat) (f : Entry → Entry) : (s.modEntry i f).clock = s.clock := rfl
@[simp] theorem State.modEntry_seconds (s : State) (i : Nat) (f : Entry → Entry) : (s.modEntry i f).seconds = s.seconds := rfl
@[simp] theorem State.modEntry_smon (s : State) (i : Nat) (f : Entry → Entry) : (s.modEntry i f).smon = s.smon := rfl
@[simp] theorem State.modEntry_path (s : State) (i : Nat) (f : Entry → Entry) : (s.modEntry i f).path = s.path := rfl
@[simp] theorem State.modEntry_glu (s : State) (i : Nat) (f : Entry → Entry) : (s.modEntry i f).glu = s.glu := rfl
@[simp] theorem State.modEntry_bayc (s : State) (i : Nat) (f : Entry → Entry) : (s.modEntry i f).bayc = s.bayc := rfl
@[simp] theorem State.modEntry_chg (s : State) (i : Nat) (f : Entry → Entry) : (s.modEntry i f).chg = s.chg := rfl
@[simp] theorem State.modEntry_therm (s : State) (i : Nat) (f : Entry → Entry) : (s.modEntry i f).therm = s.therm := rfl
@[simp] theorem State.modEntry_als (s : State) (i : Nat) (f : Entry → Entry) : (s.modEntry i f).als = s.als := rfl
@[simp] theorem State.modEntry_bld (s : State) (i : Nat) (f : Entry → Entry) : (s.modEntry i f).bld = s.bld := rfl
@[simp] theorem State.modEntry_mot (s : State) (i : Nat) (f : Entry → Entry) : (s.modEntry i f).mot = s.mot := rfl
@[simp] theorem State.modEntry_park (s : State) (i : Nat) (f : Entry → Entry) : (s.modEntry i f).park = s.park := rfl
@[simp] theorem State.modEntry_icl (s : State) (i : Nat) (f : Entry → Entry) : (s.modEntry i f).icl = s.icl := rfl
@[simp] theorem State.modEntry_walk (s : State) (i : Nat) (f : Entry → Entry) : (s.modEntry i f).walk = s.walk := rfl
@[simp] theorem State.modEntry_attn (s : State) (i : Nat) (f : Entry → Entry) : (s.modEntry i f).attn = s.attn := rfl
@[simp] theorem State.modEntry_psd (s : State) (i : Nat) (f : Entry → Entry) : (s.modEntry i f).psd = s.psd := rfl
@[simp] theorem State.modEntry_mem (s : State) (i : Nat) (f : Entry → Entry) : (s.modEntry i f).mem = s.mem := rfl
@[simp] theorem State.modEntry_miso (s : State) (i : Nat) (f : Entry → Entry) : (s.modEntry i f).miso = s.miso := rfl
@[simp] theorem State.modEntry_reports (s : State) (i : Nat) (f : Entry → Entry) : (s.modEntry i f).reports = s.reports := rfl
@[simp] theorem State.modEntry_turn (s : State) (i : Nat) (f : Entry → Entry) : (s.modEntry i f).turn = s.turn := rfl

/-! ### `State.setWalk` -/

@[simp] theorem State.setWalk_pending (s : State) (f : Walker → Walker) : (s.setWalk f).pending = s.pending := rfl
@[simp] theorem State.setWalk_clock (s : State) (f : Walker → Walker) : (s.setWalk f).clock = s.clock := rfl
@[simp] theorem State.setWalk_seconds (s : State) (f : Walker → Walker) : (s.setWalk f).seconds = s.seconds := rfl
@[simp] theorem State.setWalk_smon (s : State) (f : Walker → Walker) : (s.setWalk f).smon = s.smon := rfl
@[simp] theorem State.setWalk_path (s : State) (f : Walker → Walker) : (s.setWalk f).path = s.path := rfl
@[simp] theorem State.setWalk_glu (s : State) (f : Walker → Walker) : (s.setWalk f).glu = s.glu := rfl
@[simp] theorem State.setWalk_bayc (s : State) (f : Walker → Walker) : (s.setWalk f).bayc = s.bayc := rfl
@[simp] theorem State.setWalk_budget (s : State) (f : Walker → Walker) : (s.setWalk f).budget = s.budget := rfl
@[simp] theorem State.setWalk_chg (s : State) (f : Walker → Walker) : (s.setWalk f).chg = s.chg := rfl
@[simp] theorem State.setWalk_therm (s : State) (f : Walker → Walker) : (s.setWalk f).therm = s.therm := rfl
@[simp] theorem State.setWalk_als (s : State) (f : Walker → Walker) : (s.setWalk f).als = s.als := rfl
@[simp] theorem State.setWalk_bld (s : State) (f : Walker → Walker) : (s.setWalk f).bld = s.bld := rfl
@[simp] theorem State.setWalk_mot (s : State) (f : Walker → Walker) : (s.setWalk f).mot = s.mot := rfl
@[simp] theorem State.setWalk_park (s : State) (f : Walker → Walker) : (s.setWalk f).park = s.park := rfl
@[simp] theorem State.setWalk_icl (s : State) (f : Walker → Walker) : (s.setWalk f).icl = s.icl := rfl
@[simp] theorem State.setWalk_attn (s : State) (f : Walker → Walker) : (s.setWalk f).attn = s.attn := rfl
@[simp] theorem State.setWalk_psd (s : State) (f : Walker → Walker) : (s.setWalk f).psd = s.psd := rfl
@[simp] theorem State.setWalk_mem (s : State) (f : Walker → Walker) : (s.setWalk f).mem = s.mem := rfl
@[simp] theorem State.setWalk_miso (s : State) (f : Walker → Walker) : (s.setWalk f).miso = s.miso := rfl
@[simp] theorem State.setWalk_reports (s : State) (f : Walker → Walker) : (s.setWalk f).reports = s.reports := rfl
@[simp] theorem State.setWalk_turn (s : State) (f : Walker → Walker) : (s.setWalk f).turn = s.turn := rfl

/-! ### `State.setResource` -/

@[simp] theorem State.setResource_pending (s : State) (n : ResourceName) (r : Resource) : (s.setResource n r).pending = s.pending := by cases n <;> rfl
@[simp] theorem State.setResource_clock (s : State) (n : ResourceName) (r : Resource) : (s.setResource n r).clock = s.clock := by cases n <;> rfl
@[simp] theorem State.setResource_seconds (s : State) (n : ResourceName) (r : Resource) : (s.setResource n r).seconds = s.seconds := by cases n <;> rfl
@[simp] theorem State.setResource_smon (s : State) (n : ResourceName) (r : Resource) : (s.setResource n r).smon = s.smon := by cases n <;> rfl
@[simp] theorem State.setResource_path (s : State) (n : ResourceName) (r : Resource) : (s.setResource n r).path = s.path := by cases n <;> rfl
@[simp] theorem State.setResource_glu (s : State) (n : ResourceName) (r : Resource) : (s.setResource n r).glu = s.glu := by cases n <;> rfl
@[simp] theorem State.setResource_bayc (s : State) (n : ResourceName) (r : Resource) : (s.setResource n r).bayc = s.bayc := by cases n <;> rfl
@[simp] theorem State.setResource_budget (s : State) (n : ResourceName) (r : Resource) : (s.setResource n r).budget = s.budget := by cases n <;> rfl
@[simp] theorem State.setResource_chg (s : State) (n : ResourceName) (r : Resource) : (s.setResource n r).chg = s.chg := by cases n <;> rfl
@[simp] theorem State.setResource_therm (s : State) (n : ResourceName) (r : Resource) : (s.setResource n r).therm = s.therm := by cases n <;> rfl
@[simp] theorem State.setResource_als (s : State) (n : ResourceName) (r : Resource) : (s.setResource n r).als = s.als := by cases n <;> rfl
@[simp] theorem State.setResource_bld (s : State) (n : ResourceName) (r : Resource) : (s.setResource n r).bld = s.bld := by cases n <;> rfl
@[simp] theorem State.setResource_mot (s : State) (n : ResourceName) (r : Resource) : (s.setResource n r).mot = s.mot := by cases n <;> rfl
@[simp] theorem State.setResource_park (s : State) (n : ResourceName) (r : Resource) : (s.setResource n r).park = s.park := by cases n <;> rfl
@[simp] theorem State.setResource_icl (s : State) (n : ResourceName) (r : Resource) : (s.setResource n r).icl = s.icl := by cases n <;> rfl
@[simp] theorem State.setResource_attn (s : State) (n : ResourceName) (r : Resource) : (s.setResource n r).attn = s.attn := by cases n <;> rfl
@[simp] theorem State.setResource_psd (s : State) (n : ResourceName) (r : Resource) : (s.setResource n r).psd = s.psd := by cases n <;> rfl
@[simp] theorem State.setResource_mem (s : State) (n : ResourceName) (r : Resource) : (s.setResource n r).mem = s.mem := by cases n <;> rfl
@[simp] theorem State.setResource_miso (s : State) (n : ResourceName) (r : Resource) : (s.setResource n r).miso = s.miso := by cases n <;> rfl
@[simp] theorem State.setResource_reports (s : State) (n : ResourceName) (r : Resource) : (s.setResource n r).reports = s.reports := by cases n <;> rfl
@[simp] theorem State.setResource_turn (s : State) (n : ResourceName) (r : Resource) : (s.setResource n r).turn = s.turn := by cases n <;> rfl

/-! ### `State.setAls` -/

@[simp] theorem State.setAls_pending (s : State) (f : Als → Als) : (s.setAls f).pending = s.pending := rfl
@[simp] theorem State.setAls_clock (s : State) (f : Als → Als) : (s.setAls f).clock = s.clock := rfl
@[simp] theorem State.setAls_seconds (s : State) (f : Als → Als) : (s.setAls f).seconds = s.seconds := rfl
@[simp] theorem State.setAls_smon (s : State) (f : Als → Als) : (s.setAls f).smon = s.smon := rfl
@[simp] theorem State.setAls_path (s : State) (f : Als → Als) : (s.setAls f).path = s.path := rfl
@[simp] theorem State.setAls_glu (s : State) (f : Als → Als) : (s.setAls f).glu = s.glu := rfl
@[simp] theorem State.setAls_bayc (s : State) (f : Als → Als) : (s.setAls f).bayc = s.bayc := rfl
@[simp] theorem State.setAls_budget (s : State) (f : Als → Als) : (s.setAls f).budget = s.budget := rfl
@[simp] theorem State.setAls_chg (s : State) (f : Als → Als) : (s.setAls f).chg = s.chg := rfl
@[simp] theorem State.setAls_therm (s : State) (f : Als → Als) : (s.setAls f).therm = s.therm := rfl
@[simp] theorem State.setAls_bld (s : State) (f : Als → Als) : (s.setAls f).bld = s.bld := rfl
@[simp] theorem State.setAls_mot (s : State) (f : Als → Als) : (s.setAls f).mot = s.mot := rfl
@[simp] theorem State.setAls_park (s : State) (f : Als → Als) : (s.setAls f).park = s.park := rfl
@[simp] theorem State.setAls_icl (s : State) (f : Als → Als) : (s.setAls f).icl = s.icl := rfl
@[simp] theorem State.setAls_walk (s : State) (f : Als → Als) : (s.setAls f).walk = s.walk := rfl
@[simp] theorem State.setAls_attn (s : State) (f : Als → Als) : (s.setAls f).attn = s.attn := rfl
@[simp] theorem State.setAls_psd (s : State) (f : Als → Als) : (s.setAls f).psd = s.psd := rfl
@[simp] theorem State.setAls_mem (s : State) (f : Als → Als) : (s.setAls f).mem = s.mem := rfl
@[simp] theorem State.setAls_miso (s : State) (f : Als → Als) : (s.setAls f).miso = s.miso := rfl
@[simp] theorem State.setAls_reports (s : State) (f : Als → Als) : (s.setAls f).reports = s.reports := rfl
@[simp] theorem State.setAls_turn (s : State) (f : Als → Als) : (s.setAls f).turn = s.turn := rfl

/-! ### `State.setSwitches` -/

@[simp] theorem State.setSwitches_pending (s : State) (f : SourceSet) : (s.setSwitches f).pending = s.pending := rfl
@[simp] theorem State.setSwitches_clock (s : State) (f : SourceSet) : (s.setSwitches f).clock = s.clock := rfl
@[simp] theorem State.setSwitches_seconds (s : State) (f : SourceSet) : (s.setSwitches f).seconds = s.seconds := rfl
@[simp] theorem State.setSwitches_path (s : State) (f : SourceSet) : (s.setSwitches f).path = s.path := rfl
@[simp] theorem State.setSwitches_glu (s : State) (f : SourceSet) : (s.setSwitches f).glu = s.glu := rfl
@[simp] theorem State.setSwitches_bayc (s : State) (f : SourceSet) : (s.setSwitches f).bayc = s.bayc := rfl
@[simp] theorem State.setSwitches_budget (s : State) (f : SourceSet) : (s.setSwitches f).budget = s.budget := rfl
@[simp] theorem State.setSwitches_chg (s : State) (f : SourceSet) : (s.setSwitches f).chg = s.chg := rfl
@[simp] theorem State.setSwitches_therm (s : State) (f : SourceSet) : (s.setSwitches f).therm = s.therm := rfl
@[simp] theorem State.setSwitches_als (s : State) (f : SourceSet) : (s.setSwitches f).als = s.als := rfl
@[simp] theorem State.setSwitches_bld (s : State) (f : SourceSet) : (s.setSwitches f).bld = s.bld := rfl
@[simp] theorem State.setSwitches_mot (s : State) (f : SourceSet) : (s.setSwitches f).mot = s.mot := rfl
@[simp] theorem State.setSwitches_park (s : State) (f : SourceSet) : (s.setSwitches f).park = s.park := rfl
@[simp] theorem State.setSwitches_icl (s : State) (f : SourceSet) : (s.setSwitches f).icl = s.icl := rfl
@[simp] theorem State.setSwitches_walk (s : State) (f : SourceSet) : (s.setSwitches f).walk = s.walk := rfl
@[simp] theorem State.setSwitches_attn (s : State) (f : SourceSet) : (s.setSwitches f).attn = s.attn := rfl
@[simp] theorem State.setSwitches_psd (s : State) (f : SourceSet) : (s.setSwitches f).psd = s.psd := rfl
@[simp] theorem State.setSwitches_mem (s : State) (f : SourceSet) : (s.setSwitches f).mem = s.mem := rfl
@[simp] theorem State.setSwitches_miso (s : State) (f : SourceSet) : (s.setSwitches f).miso = s.miso := rfl
@[simp] theorem State.setSwitches_reports (s : State) (f : SourceSet) : (s.setSwitches f).reports = s.reports := rfl
@[simp] theorem State.setSwitches_turn (s : State) (f : SourceSet) : (s.setSwitches f).turn = s.turn := rfl

/-! ### What each update gives -/

@[simp] theorem State.write_mem (s : State) (base : Nat) (bs : List Byte) : (s.write base bs).mem = Mem.write s.mem base bs := rfl
@[simp] theorem State.report_reports (s : State) (r : Report) : (s.report r).reports = s.reports ++ [r] := rfl
@[simp] theorem State.nextTurn_turn (s : State) : s.nextTurn.turn = s.turn + 1 := rfl
@[simp] theorem State.raise_mask (s : State) (b : AttnBit) : (s.raise b).attn.mask = s.attn.mask := rfl
@[simp] theorem State.raiseIf_mask (s : State) (c : Bool) (b : AttnBit) : (s.raiseIf c b).attn.mask = s.attn.mask := by cases c <;> rfl
@[simp] theorem State.bay_setBayRec (s : State) (x : Bay) (r : BayRecord) : (s.setBayRec x r).bay x = r := by cases x <;> rfl
@[simp] theorem State.bay_setBayRec_other (s : State) (x : Bay) (r : BayRecord) :
    (s.setBayRec x r).bay (otherBay x) = s.bay (otherBay x) := by cases x <;> rfl
@[simp] theorem State.pack_setPack (s : State) (x : Bay) (r : PackRecord) : (s.setPack x r).pack x = r := by cases x <;> rfl
@[simp] theorem State.pack_setPack_other (s : State) (x : Bay) (r : PackRecord) :
    (s.setPack x r).pack (otherBay x) = s.pack (otherBay x) := by cases x <;> rfl
@[simp] theorem State.source_setSource (s : State) (x : Source) (e : SourceEntry) : (s.setSource x e).source x = e := by cases x <;> rfl
@[simp] theorem State.resource_setResource (s : State) (n : ResourceName) (r : Resource) :
    (s.setResource n r).walk.resource n = r := by cases n <;> rfl
@[simp] theorem State.feeding_setSwitches (s : State) (f : SourceSet) : (s.setSwitches f).feeding = f := rfl
@[simp] theorem State.setAls_als (s : State) (f : Als → Als) : (s.setAls f).als = f s.als := rfl
@[simp] theorem State.setWalk_walk (s : State) (f : Walker → Walker) : (s.setWalk f).walk = f s.walk := rfl

theorem State.source_setSource_ne (s : State) {x y : Source} (e : SourceEntry) (h : y ≠ x) : (s.setSource x e).source y = s.source y := by
  cases x <;> cases y <;> first | rfl | exact absurd rfl h

theorem State.resource_setResource_ne (s : State) {m n : ResourceName} (r : Resource) (h : m ≠ n) :
    (s.setResource n r).walk.resource m = s.walk.resource m := by
  cases n <;> cases m <;> first | rfl | exact absurd rfl h

/-- An entry that `modEntry` does not name stays; the one it names becomes what the function gives. -/
theorem State.entry_modEntry (s : State) (i j : Nat) (f : Entry → Entry) :
    (s.modEntry i f).budget.entry j = if i = j ∧ i < s.budget.entries.length then f (s.budget.entry i) else s.budget.entry j := by
  show (s.budget.entries.set i (f (s.budget.entry i))).getD j _ = _
  unfold Budget.entry
  rw [List.getD_eq_getElem?_getD, List.getD_eq_getElem?_getD, List.getD_eq_getElem?_getD, List.getElem?_set]
  by_cases h : i = j
  · subst h
    by_cases hl : i < s.budget.entries.length
    · rw [if_pos rfl, if_pos hl, if_pos ⟨rfl, hl⟩]; rfl
    · rw [if_pos rfl, if_neg hl, if_neg (fun c => hl c.2), List.getElem?_eq_none (by omega)]
  · rw [if_neg h, if_neg (fun c => h c.1)]

/-! ### Zones and lines -/

@[simp] theorem Therm.zone_setZone (t : Therm) (z : ZoneName) (r : Zone) : (t.setZone z r).zone z = r := by cases z <;> rfl
theorem Therm.zone_setZone_ne (t : Therm) {y z : ZoneName} (r : Zone) (h : y ≠ z) : (t.setZone z r).zone y = t.zone y := by
  cases y <;> cases z <;> first | rfl | exact absurd rfl h
@[simp] theorem Therm.zone_withPack (t : Therm) (x : Bay) (p : PackRecord) (fresh : Bool) :
    (t.withPack x p fresh).zone (bayZone x) = (t.zone (bayZone x)).handed p fresh := Therm.zone_setZone ..
theorem Therm.zone_withPack_ne (t : Therm) (x : Bay) (p : PackRecord) (fresh : Bool) {z : ZoneName} (h : z ≠ bayZone x) :
    (t.withPack x p fresh).zone z = t.zone z := Therm.zone_setZone_ne t _ h

@[simp] theorem State.lines_attn (s : State) : s.lines.attn = s.attnLine := rfl
@[simp] theorem State.lines_pfw (s : State) : s.lines.pfw = (s.path.mode == .brownout) := rfl
@[simp] theorem State.lines_parkReq (s : State) : s.lines.parkReq = s.park.req := rfl
@[simp] theorem State.lines_lockA (s : State) : s.lines.lockA = s.bayc.bayA.lock := rfl
@[simp] theorem State.lines_lockB (s : State) : s.lines.lockB = s.bayc.bayB.lock := rfl
@[simp] theorem State.lines_swIn (s : State) : s.lines.swIn = s.smon.inlet.closed := rfl
@[simp] theorem State.lines_swA (s : State) : s.lines.swA = s.smon.packA.closed := rfl
@[simp] theorem State.lines_swB (s : State) : s.lines.swB = s.smon.packB.closed := rfl
@[simp] theorem State.lines_blEn (s : State) : s.lines.blEn = (s.bld.present != 0) := rfl
@[simp] theorem State.lines_blPwm (s : State) : s.lines.blPwm = s.bld.present := rfl
@[simp] theorem State.lines_chgEn (s : State) : s.lines.chgEn = s.chg.en := rfl
@[simp] theorem State.lines_chgSel (s : State) : s.lines.chgSel = s.chg.sel := rfl
@[simp] theorem State.lines_chgSet (s : State) : s.lines.chgSet = s.chg.set := rfl

end Sys2Proof.Machine
end

