-- ==== Sys2Proof/Tests/Slice0.lean ====
section
/-! SUPPORT. Tests on fixed values: the ill-formed commands, the transfers as section 13.3 spells them, the manual's worked cases, and for each
statement with hypotheses the values that meet them. -/

namespace Sys2Proof.Machine.Tests

/- One test after the other: each waits for the kernel's check of what stands before it, and a thread apiece is more than the memory holds. -/
set_option Elab.async false

/-! ### Helpers -/

/-- The state after a command. -/
def after (i : Instr) (s : State) : State :=
  match exec i s with
  | .next t => t
  | .fault f => nomatch f
  | .refused _ => s

def noAlarms : Alarms := ⟨false, false, false, false⟩

/-- A snapshot with a charge, a temperature in 0.1 °C and a greatest power. -/
def snap (charge : Nat) (temp : Int) (power : Nat) : Snapshot := ⟨12000, 0, temp, charge, 4000, 5000, power, noAlarms, 0⟩

/-- A pack whose link is ONLINE. -/
def online : PackRecord := { PackRecord.reset with link := .online, identity := some ⟨7, 4, 5000⟩, snapshot := some (snap 60 250 36000) }

/-- A bay in a state, its contact closed. -/
def bayIn (st : BayState) : BayRecord := { BayRecord.reset with state := st, contact := true, lock := st == .released }

/-- Bay A in a state with a pack in it. -/
def bayA (st : BayState) (p : PackRecord) (s : State) : State := (s.setBayRec .a (bayIn st)).setPack .a p

/-- A pack with an operation in flight: its kind, the values gathered, the failed attempts. -/
def busy (k : GaugeKind) (gathered : List Nat) (failed : Nat) (p : PackRecord) : PackRecord := { p with op := some ⟨k, gathered, failed, false⟩ }

/-- The walker RUNNING at slot 0, which carries a posted card with tag 0x1234. -/
def posted (kind : Nat) (params : Fields) (s : State) : State :=
  let s1 := { s with walk := { s.walk with state := .running, run := true } }
  (s1.write 0x800 (u8 1 ++ u8 kind ++ u16 0x1234)).writeFields 0 params

/-- The entry of bay A held by slot 3, that of PARK by slot 5. -/
def held (s : State) : State := { s with walk := { s.walk with bayA := .held 3 0x1111, park := .held 5 0x2222 } }

/-- A transfer from pack A to IN in MAKING, both switches closed. -/
def making (s : State) : State :=
  { s with
    path := { s.path with mode := .making, transfer := some ⟨.single .inlet, .single .packA, .inReturn, 5, some ⟨5, 20⟩⟩ }
    smon := { s.smon with inlet := { s.smon.inlet with closed := true }, packA := { s.smon.packA with closed := true } } }

/-- The same transfer in PAUSED under a hold set. -/
def paused (h : HoldSet) (s : State) : State := { making s with path := { (making s).path with mode := .paused, holds := h } }

/-- A platform that is ACTIVE. -/
def lit (s : State) : State := { s with psd := { s.psd with platform := .active } }

def reset : State := State.reset
def aTimer : Timer := ⟨0, 20⟩

/-! ### Well-formedness -/

theorem test_read_without_address_is_ill_formed : wellFormed (.memoryRead none 1) = false := by decide
theorem test_write_without_address_is_ill_formed : wellFormed (.memoryWrite none [0]) = false := by decide
theorem test_register_read_without_address_is_ill_formed : wellFormed (.registerRead none 2) = false := by decide
theorem test_register_write_without_address_is_ill_formed : wellFormed (.registerWrite none [0] noSupply) = false := by decide
theorem test_whole_register_write_is_ill_formed : wellFormed (.registerWrite (some 3) [0, 0] noSupply) = false := by decide
theorem test_known_unknown_command_is_ill_formed : wellFormed (.unknownCommand 0x36 0) = false := by decide
theorem test_run_with_soft_reset_is_ill_formed : wellFormed (.controlRun 3 noSupply) = false := by decide
theorem test_recheck_with_soft_reset_is_ill_formed : wellFormed (.controlRecheck 2 noSupply) = false := by decide
theorem test_soft_reset_without_its_bit_is_ill_formed : wellFormed (.softReset 1) = false := by decide

/-! ### Transfers (section 13.3) and the opcode table, which gives no row bits -/

theorem test_transfer_memory_read : decodeTransfer [0x31, 0x00, 0x01, 0, 0] noSupply = some (.memoryRead (some 0x0100) 2) := by decide
theorem test_transfer_memory_write : decodeTransfer [0x32, 0x43, 0x00, 7] noSupply = some (.memoryWrite (some 0x0043) [7]) := by decide
theorem test_transfer_register_read : decodeTransfer [0x35, 0x02, 0x00, 0, 0] noSupply = some (.registerRead (some 2) 2) := by decide
theorem test_transfer_attn : decodeTransfer [0x36, 0x00, 0x00, 0x01, 0x02] noSupply = some (.attnWrite 0x0201) := by decide
theorem test_transfer_mask : decodeTransfer [0x36, 0x01, 0x00, 0xFF, 0x7F] noSupply = some (.maskWrite 0x7FFF) := by decide
theorem test_transfer_run : decodeTransfer [0x36, 0x02, 0x00, 0x01, 0x0A] noSupply = some (.controlRun 0x0A01 noSupply) := by decide
theorem test_transfer_soft_reset : decodeTransfer [0x36, 0x02, 0x00, 0x02, 0x00] noSupply = some (.softReset 2) := by decide
theorem test_transfer_nudge : decodeTransfer [0x36, 0x03, 0x00, 0, 0] noSupply = some (.nudge 0 noSupply) := by decide
theorem test_transfer_half_write : decodeTransfer [0x36, 0x03, 0x00, 0] noSupply = some (.registerWrite (some 3) [0] noSupply) := by decide
theorem test_transfer_unknown : decodeTransfer [0x40, 1, 2] noSupply = some (.unknownCommand 0x40 2) := by decide
theorem test_table_word : decodeTableWord 32 0x36 = none ∧ State.withFetchWord reset 32 0x36 = reset := by decide

/-! ### The manual's worked cases -/

/-- Section 7.7: integrations 1 and 4. -/
theorem test_van_into_sun :
    rawLux 1400 400 160 8 = 287 ∧ nextGain 1400 400 8 = 64 ∧ smooth 300 287 8 2 = 299 ∧ rawLux 27600 6400 160 1 = 47200 ∧
      smooth 299 47200 8 2 = 23749 ∧ smooth 23749 47200 8 2 = 35474 := by decide +kernel

/-- Section 7.8. -/
theorem test_last_lux : smooth 102 103 8 2 = 103 ∧ smooth 103 103 8 2 = 103 ∧ smooth 110 103 8 2 = 109 := by decide +kernel

/-- Section 8.9. -/
theorem test_light_to_duty :
    smooth 52000 70400 8 2 = 61200 ∧ curveAt defaultCurve 61200 = 903 ∧ curveAt defaultCurve 52000 = 820 ∧ dutyPower 9000 767 = 6748 ∧
      dutyPower 9000 8 = 71 ∧ dutyPower 9000 454 = 3995 ∧ dutyPower 9000 159 = 1399 ∧ dutyPower 9000 923 = 8121 := by decide +kernel

/-- Section 8.9, the table of figures. -/
theorem test_figures :
    let b := ({ Bld.reset with f := 61200, factor := 75, token := .backlight, claim := true, lastGrant := 6748, lastState := .granted } : Bld)
    let c := (b.figures true).cut
    c.curveNits = 903 ∧ c.requested = 923 ∧ c.thermalCap = 767 ∧ c.capped = 767 ∧ c.budgetCap = 767 ∧ c.ceiling = 767 ∧
      b.normDuty = 511 := by decide +kernel

/-- The table of section 4.6. -/
def table46 : List Entry :=
  (Budget.reset.entries.set 2 ⟨.backlight, 7, 6748, 71, 0, .inactive⟩).set 4 ⟨.host, 5, 8000, 4000, 0, .inactive⟩ |>.set 5
    ⟨.host, 2, 15000, 5000, 0, .inactive⟩

theorem test_live_grants : (grantTable 34700 table46).map Entry.grant = [0, 0, 6748, 0, 8000, 15000, 0, 0, 0, 0, 0, 0] := by decide +kernel

theorem test_projected_grants :
    let t := grantTable 10400 (table46.set 1 ⟨.lockB, 7, 2400, 2400, 0, .inactive⟩)
    t.map Entry.grant = [0, 2400, 4000, 0, 4000, 0, 0, 0, 0, 0, 0, 0] ∧ (t.map Entry.state)[5]? = some .shed := by decide +kernel

/-- Section 6.7, polls 1 to 9, by the level before each and the level after. -/
theorem test_pack_warming :
    let z (level : Nat) : Zone := { Therm.reset.bayB with level }
    (z 0).nextLevel 440 = 0 ∧ (z 0).nextLevel 450 = 1 ∧ (z 1).nextLevel 560 = 2 ∧ (z 2).nextLevel 602 = 3 ∧ (z 3).nextLevel 580 = 3 ∧
      (z 3).nextLevel 569 = 2 ∧ (z 2).nextLevel 530 = 2 ∧ (z 2).nextLevel 519 = 1 ∧ (z 1).nextLevel 410 = 0 := by decide +kernel

/-- Section 10.7: the drop, and the two shorter ones. -/
def tailgate : Finished := ⟨.drop, 320, 13200, some ⟨.z, true⟩, 5, 1⟩

theorem test_tailgate :
    tailgate.height = 784 ∧ Icl.reset.severity tailgate = 3 ∧ Icl.reset.severity { tailgate with fall := 100 } = 1 ∧
      Icl.reset.severity { tailgate with peak := 9000 } = 2 := by decide +kernel

/-- Section 10.7: record 41 goes into slot 9, W becomes 10; into the neglected ring it is lost. -/
theorem test_record_41 :
    let s := ({ reset with icl := { Icl.reset with nextSeq := 41, written := 9 } } : State).write 0x43 [7]
    let t := s.logImpact tailgate
    t.num 0x1120 2 = 41 ∧ t.icl.written = 10 ∧ (t.byte 0x42).toNat = 10 ∧ t.icl.nextSeq = 42 ∧ t.park.latch = true ∧
      t.attnBit .impactLogged = true := by decide +kernel

theorem test_record_41_lost :
    let s := ({ reset with icl := { Icl.reset with nextSeq := 41, written := 10 } } : State).write 0x43 [250]
    let t := s.logImpact tailgate
    t.icl.written = 10 ∧ t.icl.lost = 1 ∧ t.attnBit .impactLogged = false ∧ t.park.latch = true := by decide +kernel

/-- Section 9.6: sample 201, with d = 5, and sample 324. -/
theorem test_fall_with_a_gap :
    let m := { Motion.reset with detector := .falling, fall := 200 }
    (m.apply none ⟨0, 0, 100, 244, 10000⟩ 5).1.fall = 205 ∧
      (({ m with fall := 327 } : Motion).apply none ⟨0, 0, -13200, 111, 174240000⟩ 1).1.window =
        some ⟨.drop, 1, 174240000, ⟨.z, true⟩, 1, 0, 327⟩ := by decide +kernel

/-- Section 11.8: SET_LOAD with priority 9 is CLAMPED to 6, its card returned, and the walker goes on. -/
theorem test_set_load_card :
    let t := after .setLoad (posted 5 [(8, u8 4 ++ u8 9), (12, u32 8000), (16, u32 4000)] reset)
    (t.byte 0x800).toNat = 0 ∧ (t.byte 0x804).toNat = Result.code .clamped ∧ (t.byte 0x809).toNat = 6 ∧ t.num 0x802 2 = 0x1234 ∧
      (t.budget.entry 4).request = 8000 ∧ t.walk.index = 1 ∧ t.walk.state = .waiting ∧ t.attn.bits = 3 := by decide +kernel

/-- The state of section 4.6 with the backlight of section 8.9: both packs feed in PARALLEL mode, BTN_B has just been debounced down. -/
def field : State :=
  let on (maxp : Nat) (t : Int) : PackRecord := { online with snapshot := some (snap 60 t maxp) }
  let src : SourceEntry := { SourceEntry.reset 2 with presence := .present, above := true, closed := true }
  { reset with
    smon := { Smon.reset with packA := src, packB := src }
    path := { Path.reset with discharge := .parallel, measured := 47500 }
    glu := { Glu.reset with packA := on 36000 250, packB := on 36000 560 }
    bayc := { Bayc.reset with
      bayA := bayIn .seated, bayB := { bayIn .seated with debounce := some ⟨0, 50⟩, buttonLine := true } }
    therm := { Therm.reset with bayB := { Therm.reset.bayB with temp := some 560, level := 2 }, panel := { Therm.reset.panel with level := 1 } }
    psd := { Psd.reset with platform := .active }
    bld := { Bld.reset with
      f := 61200, factor := 75, token := .backlight, claim := true, lastGrant := 6748, lastState := .granted, curveNits := 903, target := 903
      requested := 923, demand := 923, thermalCap := 767, boostCap := 1023, capped := 767, budgetCap := 767, ceiling := 767, present := 767
      request := 6748, floor := 71 }
    budget := { Budget.reset with
      base := 22000, token := .backlight, capacity := 56700, headroom := 34700, entries := grantTable 34700 table46
      capSet := ⟨false, true, true⟩ } }

/-- Sections 3.7 and 4.6: the projection accepts, PATH opens B, the bay is RELEASED, the heater is shed and the duty falls to 454. -/
theorem test_release_of_bay_b :
    let t := after (.buttonDebounceExpiry .b) field
    (t.budget.projCapacity = 32400 ∧ t.budget.predicted = 28152 ∧ t.budget.capacity = 32400 ∧ t.budget.headroom = 10400) ∧
      t.budget.entries.map Entry.grant = [0, 2400, 4000, 0, 4000, 0, 0, 0, 0, 0, 0, 0] ∧ t.feeding = ⟨false, true, false⟩ ∧
      ((t.bay .b).state = .released ∧ (t.bay .b).lock = true ∧ (t.bay .b).window = some ⟨0, 20000⟩) ∧
      (t.bay .b).outcome = some ⟨.button, .ok, 20, 0⟩ ∧ t.bld.present = 454 ∧ t.bld.request = 6748 ∧ t.budget.projection = none ∧
      t.attn.bits = AttnBit.word .bayChange ||| AttnBit.word .sourceChange ||| AttnBit.word .budgetShed := by decide +kernel

/-- Section 4.6: the removal of B frees the lock's power. -/
theorem test_removal_of_bay_b :
    let s := after (.contactChange .b false) (after (.buttonDebounceExpiry .b) field)
    let t := after (.removalConfirmExpiry .b) s
    t.budget.entries.map Entry.grant = [0, 0, 1400, 0, 4000, 5000, 0, 0, 0, 0, 0, 0] ∧ t.bld.present = 159 ∧
      (t.bay .b).lastRemoval = some .normal ∧ t.feeding = ⟨false, true, false⟩ := by decide +kernel

/-! ### Values that meet the hypotheses of the statements, clause by clause -/

theorem test_StepRunsTheFrontCommand_applies : reset.pending = [] := rfl

/-- A start from IN, from pack B, and from nothing. -/
def pins (v : Supply) (det : Bool) : Pins := ⟨v, 1180, det, det, false, false, 300, 300, 300, false, true, true, false⟩

theorem test_PowerOnReset_applies :
    (after (.powerOnReset (pins ⟨16001, 8801, 8801⟩ true)) reset).feeding = ⟨true, false, false⟩ ∧
      (after (.powerOnReset (pins ⟨15999, 8799, 8801⟩ true)) reset).feeding = ⟨false, false, true⟩ ∧
      (after (.powerOnReset (pins ⟨15999, 8801, 8801⟩ false)) reset).attnBit .brownout = true := by decide +kernel

theorem test_PlatformReset_applies :
    ({ held reset with psd := { Psd.reset with hrstTimer := some ⟨0, 2⟩ } } : State).psd.hrstTimer = some ⟨0, 2⟩ ∧
      (held reset).walk.resource .bayA = .held 3 0x1111 ∧ (held reset).walk.resource .park = .held 5 0x2222 ∧
      (held reset).slotsDistinct := by
  refine ⟨rfl, rfl, rfl, ?_⟩
  intro m n slot tag tag' h1 h2
  cases m <;> cases n <;> first | rfl | (simp [held, reset, State.reset, Walker.reset, Walker.resource] at h1 h2; try (rw [← h1.1] at h2; simp at h2))

theorem test_DeglitchedPair_applies :
    ∀ p0 p1 : Bool, ∃ s : State, s.psd.timer = some aTimer ∧ s.psd.candidate = some (p0, p1) :=
  fun p0 p1 => ⟨{ reset with psd := { Psd.reset with timer := some aTimer, candidate := some (p0, p1) } }, rfl, rfl⟩

theorem test_SenseSample_applies : reset.tablesSound := by unfold State.tablesSound; decide

theorem test_SourcesComeAndGo_applies :
    ((reset.source .inlet).above = false ∧ reset.reports = []) ∧ (∀ x, (reset.source x).above ≠ true) ∧
      (∀ x, ((reset.setSource x { reset.source x with above := true }).source x).above ≠ false) ∧
      ({ reset with smon := { Smon.reset with settle := some aTimer } } : State).smon.settle = some aTimer := by
  refine ⟨by decide, fun x => by cases x <;> decide, fun x => by cases x <;> decide, rfl⟩

theorem test_TransferAndHoldTimers_apply :
    (making reset).path.mode = .making ∧ (making reset).path.transfer.isSome = true ∧
      (paused ⟨false, true, false⟩ { reset with path := { Path.reset with postImpact := some aTimer } }).path.mode = .paused ∧
      (paused ⟨false, true, false⟩ reset).path.holds = ⟨false, true, false⟩ ∧
      ({ paused ⟨false, true, false⟩ reset with
        path := { (paused ⟨false, true, false⟩ reset).path with postImpact := some aTimer } } : State).path.postImpact = some aTimer := by
  decide

theorem test_FailedGaugeAttempts_apply :
    ∀ k : GaugeKind, ∀ n, n = 2 ∨ n = 3 → ∃ s : State, s.reports = [] ∧ (s.pack .a).op = some ⟨k, [], n, false⟩ ∧
      s.glu.retryLimit = 3 ∧ (s.pack .a).link ≠ .lost ∧ 3 ≤ min 3 ((s.pack .a).failureRun + 1) ∧
      s.walk.resource (bayResource .a) = .held 3 0x1111 :=
  fun k n _ => ⟨held (bayA .seated (busy k [] n { online with failureRun := 2 }) reset), rfl, rfl, rfl,
    show Link.online ≠ .lost by decide, show 3 ≤ min 3 (2 + 1) by decide, rfl⟩

theorem test_Polls_apply :
    (∀ k g, ∃ s : State, s.reports = [] ∧ (s.pack .a).op = some ⟨k, g, 0, false⟩ ∧ (s.pack .a).link = .lost) ∧
      [12000, 0, 35499, 60, 4000, 5000, 36000] = ([] : List Nat) ++ [12000, 0, 35499, 60, 4000, 5000, 36000] ∧
      [7, 4, 5000, 12000, 0, 0, 60, 4000, 5000, 36000] = [7, 4, 5000] ++ [12000, 0, 0, 60, 4000, 5000, 36000] ∧
      ∃ s : State, (s.pack .a).interval = some aTimer ∧ s.reports = [] :=
  ⟨fun k g => ⟨bayA .seated (busy k g 0 { online with link := .lost }) reset, rfl, rfl, rfl⟩, rfl, rfl,
    ⟨bayA .seated { online with interval := some aTimer } reset, rfl, rfl⟩⟩

theorem test_Identification_applies :
    ∀ k : GaugeKind, ∀ cells, cells = 3 ∨ cells = 4 ∨ cells = 2 ∨ cells = 255 → ∀ st : BayState, ∃ s : State,
      (s.pack .a).op = some ⟨k, [7, cells], 0, false⟩ ∧ (s.bay .a).state = st ∧ (s.pack .a).identWaiting = false ∧
        s.walk.resource (bayResource .a) = .held 3 0x1111 :=
  fun k cells _ st => ⟨held (bayA st (busy k [7, cells] 0 online) reset), rfl, rfl, rfl, rfl⟩

/-- A release in PREPARING, by a card and by the button, whose pack answers a re-identifying poll with an impossible cell count. -/
theorem test_Reident_in_preparing_applies :
    ∀ q : Origin, ∃ s : State, (s.pack .a).op = some ⟨.reident, [7, 5], 0, false⟩ ∧ (s.bay .a).state = .preparing ∧
      (s.pack .a).identWaiting = false ∧ (s.bay .a).request = some ⟨q, 3⟩ ∧ s.walk.resource (bayResource .a) = .held 3 0x1111 ∧
      s.tablesSound :=
  fun q => ⟨held ((bayA .preparing (busy .reident [7, 5] 0 online) reset).setBayRec .a { bayIn .preparing with request := some ⟨q, 3⟩ }),
    rfl, rfl, rfl, rfl, rfl, by unfold State.tablesSound; exact ⟨rfl, by show defaultCurve.length ≤ 12; decide⟩⟩

/-- A pack lost in the middle of its release with its switch closed (R45, R57), as a last resort that feeds: the order is free. -/
theorem test_rescue_in_preparing :
    let s := (bayA .preparing online reset).setSource .packA { SourceEntry.reset 2 with closed := true }
    s.rescuesRelease .a .empty = true ∧ s.rescuesRelease .a .unusable = true ∧ s.rescuesRelease .a .seated = false ∧
      (bayA .preparing online reset).rescuesRelease .a .empty = false := by decide

theorem test_ContactChanges_apply :
    (∀ st, ((bayA st online reset).bay .a).contact = true ∧ ((bayA st online reset).bay .a).state = st) ∧
      ∀ st deferred, ∃ s : State, s.reports = [] ∧ (s.bay .a).contact = false ∧ (s.bay .a).state = st ∧ (s.bay .a).removal = some aTimer ∧
        (s.bay .a).endDeferred = deferred :=
  ⟨fun _ => ⟨rfl, rfl⟩, fun st deferred =>
    ⟨reset.setBayRec .a { bayIn st with contact := false, removal := some aTimer, endDeferred := deferred }, rfl, rfl, rfl, rfl, rfl⟩⟩

theorem test_RemovalAndSettle_apply :
    let s := reset.setBayRec .a { bayIn .preparing with removal := some aTimer, settle := some aTimer, request := some ⟨.button, 3⟩ }
    (s.bay .a).removal = some aTimer ∧ (s.bay .a).settle = some aTimer ∧ (s.bay .a).state = .preparing ∧
      (s.bay .a).request = some ⟨.button, 3⟩ := by decide

/-- Bay A with its button just debounced down; bay B in another state, IN feeding with a limit. -/
def pressing (st other : BayState) (p : PackRecord) (limit : Nat) : State :=
  let s := (bayA st p reset).setBayRec .a { bayIn st with debounce := some aTimer, buttonLine := true }
  { s.setBayRec .b (bayIn other) with
    smon := { Smon.reset with
      inlet := { SourceEntry.reset 20 with presence := .present, above := true, closed := true }, adapter := some .mw65, override := limit }
    path := Path.reset }

theorem test_DebouncedPress_applies :
    (∀ st other p n, ((pressing st other p n).bay .a).debounce = some aTimer ∧ (pressing st other p n).reports = [] ∧
      ((pressing st other p n).bay .a).buttonLine = true ∧ ((pressing st other p n).bay .a).pressed = false ∧
      ((pressing st other p n).bay .a).state = st ∧ ((pressing st other p n).bay (otherBay .a)).state = other) ∧
    (BayState.opening .preparing = true ∧ BayState.opening .empty = false) ∧
    (online.cardIdent = false ∧ PackRecord.cardIdent { online with identWaiting := true } = true) ∧
    ((pressing .seated .empty online 65000).project .a).refusal = none ∧ ((pressing .seated .empty online 10).project .a).refusal = some 1 ∧
    (((pressing .unusable .empty online 65000).lockNow .a).recompute false).lockGranted .a = true ∧
    (((pressing .unusable .empty online 10).lockNow .a).recompute false).lockGranted .a = false ∧
    (pressing .seated .empty online 65000).tablesSound := by
  refine ⟨fun st other p n => ⟨rfl, rfl, rfl, rfl, rfl, rfl⟩, by decide, by decide, by decide +kernel, by decide +kernel, by decide +kernel,
    by decide +kernel, by unfold State.tablesSound; decide⟩

theorem test_PrepareLimitAndWindow_apply :
    let s := (held reset).setBayRec .a { bayIn .preparing with prepare := some aTimer, request := some ⟨.card 3, 3⟩ }
    let w (c : Bool) := reset.setBayRec .a { bayIn .released with window := some aTimer, contact := c }
    ((s.bay .a).state = .preparing ∧ (s.bay .a).prepare = some aTimer ∧ (s.bay .a).request = some ⟨.card 3, 3⟩ ∧
      s.walk.resource (bayResource .a) = .held 3 0x1111 ∧ s.budget.entries.length = 12) ∧
      ((w true).bay .a).window = some aTimer ∧ ((w true).bay .a).contact = true ∧ ((w false).bay .a).contact = false ∧
      (w false).reports = [] := by decide

/-- A lock grant for a RELEASED bay: its contact closed and open, its pack idle and with an operation in flight, its end deferred. -/
theorem test_LockGrant_applies :
    ∀ c deferred, ∀ o : Option GaugeOp, ∃ s : State, (s.bay .a).state = .released ∧ (s.bay .a).contact = c ∧
      (s.bay .a).endDeferred = deferred ∧ (s.pack .a).identity.isSome = true ∧ (s.pack .a).op = o ∧ (s.pack .a).link = .online :=
  fun c deferred o => ⟨(bayA .released { online with op := o } reset).setBayRec .a
    { bayIn .released with contact := c, endDeferred := deferred }, rfl, rfl, rfl, rfl, rfl, rfl⟩

/-- The conditions of PREPARING met, and each of them missed; a recheck accepted, refused and not due. -/
theorem test_Preparing_applies :
    let s (grant margin capacity : Nat) : State :=
      { pressing .preparing .empty online 65000 with
        budget := { Budget.reset with
          entries := Budget.reset.entries.set 0 ⟨.lockA, 7, 2400, 2400, grant, .granted⟩, swapMargin := margin
          projection := some ⟨.a, capacity, 0⟩ } }
    let closed : State := (s 2400 0 0).setSource .packA { SourceEntry.reset 2 with closed := true }
    let charged : State := { s 2400 0 0 with chg := { Charger.reset with state := .charging, bay := some .a } }
    ((s 2400 0 0).releaseReady .a = true ∧ (s 2399 0 0).releaseReady .a = false ∧ closed.releaseReady .a = false ∧
      charged.releaseReady .a = false) ∧
      (s 2400 0 0).preparing = some .a ∧ reset.preparing = none ∧ (s 2400 0 58500).capacityOf (s 2400 0 58500).capacitySet = 58500 ∧
      ((s 2400 0 0).project .a).refusal = none ∧ ((s 2400 60000 0).project .a).refusal = some 2 ∧
      (s 2400 60000 0).contested .a = true ∧ (s 2400 60000 58500).contested .a = false := by decide +kernel

/-- Bay A seated with its switch open, IN feeding, CHG with the token and a full grant. -/
def charging (k : SettleKind) : State :=
  { bayA .seated online reset with
    smon := { Smon.reset with inlet := { SourceEntry.reset 20 with closed := true } }
    chg := { Charger.reset with
      bay := some .a, claim := true, lastGrant := 45000, lastState := .granted, settle := some ⟨k, ⟨0, 200⟩⟩ }
    budget := { Budget.reset with token := .charger } }

theorem test_RateSettles_apply :
    (charging .rising).chg.settle = some ⟨.rising, ⟨0, 200⟩⟩ ∧ (charging .falling).chg.settle = some ⟨.falling, ⟨0, 200⟩⟩ ∧
      (charging .rising).chg.claim = true ∧ (charging .rising).budget.token = .charger ∧ (charging .rising).chg.fastAllowed = true ∧
      (charging .rising).chg.bay = some .a ∧ (charging .rising).candidate .a = true ∧
      5000 ≤ (charging .rising).chg.fastRate * (charging .rising).chg.factor / 100 ∧ 5000 ≤ (charging .rising).chg.lastGrant ∧
      ({ charging .falling with budget := { Budget.reset with token := .handover } } : State).budget.token = .handover := by decide +kernel

/-- CHG's claim begins, ends and stays in an evaluation. -/
theorem test_Claim_applies :
    let s (claim fast : Bool) := { charging .rising with chg := { (charging .rising).chg with claim, fastAllowed := fast } }
    (s false true).chgEvaluate.chg.claim = true ∧ (s true false).chgEvaluate.chg.claim = false ∧
      (s true true).chgEvaluate.chg.claim = true ∧ (s true true).chgEvaluate.chg.state = .charging ∧
      ({ s true true with chg := { (s true true).chg with lastGrant := 0 } } : State).chgEvaluate.chg.pause = some .budget ∧
      (∀ t : Token, ∀ w, ∃ u : State, u.budget.token = t ∧ u.budget.waiting = w) := by
  refine ⟨by decide +kernel, by decide +kernel, by decide +kernel, by decide +kernel, by decide +kernel,
    fun t w => ⟨{ reset with budget := { Budget.reset with token := t, waiting := w } }, rfl, rfl⟩⟩

/-- An evaluation that finds the charger as it was, and one that changes its state at the same request, as CHG leaves the pause for the
budget. -/
theorem test_Request_applies :
    let s : State := charging .rising
    let paused : Charger := { s.chg with lastGrant := 0, settle := none }
    let t : State := { s with chg := { ({ s with chg := paused } : State).chgEvaluate.chg with lastGrant := 45000 } }
    t.chg.pause = some .budget ∧ t.chgEvaluate.chg.state = .charging ∧ t.chgEvaluate.chg.request = t.chg.request ∧
      t.chgEvaluate.chg.agrees t.chg = false ∧ t.chgEvaluate.reports.contains .recompute = true ∧
      t.chgEvaluate.chgEvaluate.chg.agrees t.chgEvaluate.chg = true ∧ s.tablesSound := by
  refine ⟨by decide +kernel, by decide +kernel, by decide +kernel, by decide +kernel, by decide +kernel, by decide +kernel,
    by unfold State.tablesSound; decide +kernel⟩

/-- One sampling that moves PANEL, CHARGER and ENCLOSURE, and a card's level that moves and stays. -/
theorem test_Moved_applies :
    reset.therm.moved (reset.therm.sampled 550 700 650 0) = [.panel, .charger, .enclosure] ∧
      (reset.therm.sampled 550 700 650 0).chargeFactor = 0 ∧ (reset.therm.sampled 550 700 650 0).backlightFactor = 50 ∧
      (let new := reset.therm.sampled 550 700 250 0
      (State.handChanges new [.charger, .panel] reset.therm reset).chg.factor = 25) ∧
      (reset.therm.charger.nextLevel 250 = reset.therm.charger.level ∧ reset.therm.charger.nextLevel 600 ≠ reset.therm.charger.level) := by decide +kernel

theorem test_Thermistor_applies :
    (-400 : Int) ≤ 1250 ∧ ¬ ((1251 : Int) ≤ 1250) ∧ (Therm.reset.panel.nextLevel 1250 = 3) ∧ reset.tablesSound := by
  refine ⟨by decide, by decide, by decide, by unfold State.tablesSound; decide⟩

/-- A pack zone for each of its clauses: no link, LOST, a zone that waits for a snapshot, no snapshot, and the edges of the range. -/
theorem test_Pack_zones_apply :
    let z (forced : Bool) : Zone := { Therm.reset.bayA with forced }
    let p (t : Int) : PackRecord := { online with snapshot := some (snap 60 t 36000) }
    (PackRecord.reset.link = .none ∧ (p 250).link ≠ .none ∧ (p 250).link ≠ .lost ∧ (z true).forced = true ∧ (z false).forced = false) ∧
      ((z false).handed { p 250 with link := .lost } false).level = 2 ∧ ((z true).handed (p 250) false).forced = true ∧
      ((z true).handed (p 250) true).forced = false ∧ ((z false).handed { online with snapshot := none } false).temp = none ∧
      ((z false).handed (p (-401)) true).fault = true ∧ ((z false).handed (p (-400)) true).temp = some (-400) ∧
      ((z false).handed (p 1250) true).level = 3 ∧ ((z false).handed (p 1251) true).fault = true := by decide +kernel

theorem test_LightCycle_applies :
    (∀ c : Option Cycle, ∃ s : State, s.als.idling = false ∧ s.als.cycle = c) ∧
      (∃ s : State, s.als.idling = true) ∧ reset.als.faultTimer = none ∧
      ∃ s : State, s.als.faultTimer = some aTimer :=
  ⟨fun c => ⟨{ reset with als := { Als.reset with cycle := c } }, rfl, rfl⟩, ⟨{ reset with als := { Als.reset with idling := true } }, rfl⟩,
    rfl, ⟨{ reset with als := { Als.reset with faultTimer := some aTimer } }, rfl⟩⟩

theorem test_SlewAndRelease_apply :
    reset.active = false ∧ (lit reset).active = true ∧
      (let s := { reset with bld := { Bld.reset with release := some aTimer }, budget := { Budget.reset with token := .backlight } }
      s.bld.release = some aTimer ∧ (s.bld.figures s.active).wants s.active = false ∧ s.budget.token = .backlight) ∧
      (let s := { reset with
        bld := { Bld.reset with release := some aTimer }, budget := { Budget.reset with token := .backlight, waiting := true } }
      s.bld.release = some aTimer ∧ (s.bld.figures s.active).wants s.active = false ∧ s.budget.token = .backlight ∧
        s.budget.waiting = true) := by decide +kernel

/-- BLD asks CHG's token away and gives it back, with CHG keeping its claim and giving it up; BLD wants the token, and does not. -/
theorem test_TokenPasses_apply :
    let s (t : Token) (fast : Bool) : State :=
      { charging .falling with
        chg := { (charging .falling).chg with fastAllowed := fast }, budget := { Budget.reset with token := t, waiting := fast } }
    (s .charger true).bldAsk.chg.claim = true ∧ (s .charger false).bldAsk.chg.claim = false ∧
      (s .handover true).bldRelease.chg.claim = true ∧ (s .handover false).bldRelease.chg.claim = false ∧
      (let b (nits : Nat) (claim : Bool) : Bld := { Bld.reset with mode := .manual, manual := nits, claim }
      (((b 900 false).figures true).wants true = true ∧ ((b 500 true).figures true).wants true = false) ∧
        (b 900 true).lit true = true ∧ (b 900 true).lit false = false) := by decide +kernel

/-- What a sample can hand on: each of its forms, with a park in each state and a hold set that FREEFALL's removal empties. -/
theorem test_Handed_applies :
    let low : Sample := ⟨0, 0, 300, 0, 90000⟩
    let high : Sample := ⟨0, 0, 3000, 0, 9000000⟩
    let plain : Sample := ⟨0, 0, 1000, 0, 1000000⟩
    let m (d : Detector) : Motion := { Motion.reset with detector := d, candRun := 63, quiet := 15, stillness := 199, fall := 64 }
    (((m .idle).apply none high 1).2 = { park := true } ∧ ((m .candidate).apply none low 1).2 = { park := true, place := true } ∧
      ((m .falling).apply none plain 1).2 = { remove := true, done := some (.ofFall 64) } ∧
      ((m .settle).apply none plain 1).2 = { home := true } ∧
      (({ m .impact with window := some ⟨.shock, 31, 9000000, ⟨.z, false⟩, 1, 0, 0⟩ } : Motion).apply none plain 1).2 =
        { done := some ⟨.shock, 0, 3000, some ⟨.z, false⟩, 1, 0⟩ }) ∧
      (∀ st ack, ∃ s : State, s.park.state = st ∧ s.park.ack = ack ∧ s.mot.autoRelease = true ∧ s.park.latch = false ∧
        s.walk.park = .held 5 0x2222) ∧
      (paused ⟨true, false, false⟩ reset).path.holds.isEmpty = false ∧ (paused ⟨true, false, false⟩ reset).path.mode = .paused ∧
      (making reset).path.mode = .making := by
  refine ⟨by decide +kernel, fun st ack => ⟨{ held reset with park := { Park.reset with state := st, ack } }, rfl, rfl, rfl, rfl, rfl⟩,
    by decide⟩

theorem test_MotionReads_apply :
    let s (fresh : Bool) := { reset with mot := { Motion.reset with reading := true, fresh, last := some ⟨0, 0, 1000, 9, 1000000⟩ } }
    reset.mot.reading = false ∧ (s true).mot.reading = true ∧ (s false).mot.reading = true ∧
      (s false).mot.difference 9 = 0 ∧ (s false).mot.difference 8 = 255 ∧ (s true).mot.difference 9 = 1 ∧
      ({ reset with mot := { Motion.reset with stallTimer := some aTimer } } : State).mot.stallTimer = some aTimer := by decide +kernel

theorem test_Detector_applies :
    let m (d : Detector) : Motion := { Motion.reset with detector := d, candRun := 62, quiet := 15, stillness := 199 }
    let low : Sample := ⟨0, 0, 349, 0, 121801⟩
    let high : Sample := ⟨0, 0, 3000, 0, 9000000⟩
    let plain : Sample := ⟨0, 0, 350, 0, 122500⟩
    (∀ d, (m d).low low = true ∧ (m d).low plain = false ∧ (m d).high plain = false ∧ (m d).high high = true) ∧
      ((m .candidate).candRun + 1 < 64 ∧ (m .candidate).candRun < 255 ∧ 64 ≤ 63 + 1) ∧
      ((m .falling).quiet + 1 = 16 ∧ (m .settle).stillness + 1 = 200 ∧ Sample.still ⟨0, 0, 1200, 0, 1440000⟩ = true) ∧
      (31 + 1 = 32 ∧ 30 + 1 < 32 ∧ max 5 768000000 ≤ 768000000) := by
  refine ⟨fun d => by cases d <;> decide, by decide, by decide, by decide⟩

theorem test_Park_applies :
    (∀ st a, ∃ s : State, s.park.state = st ∧ s.park.ack = a ∧ s.park.timer = some aTimer ∧ s.walk.park = .held 5 0x2222) ∧
      reset.park.timer = none :=
  ⟨fun st a => ⟨{ held reset with park := ⟨st, some aTimer, false, a⟩ }, rfl, rfl, rfl, rfl⟩, rfl⟩

theorem test_LinkReads_apply :
    reset.reports = [] ∧ wellFormed (.registerWrite (some 4) [1, 2] noSupply) = true ∧
      wellFormed (.registerWrite (some 3) [1] noSupply) = true ∧ wellFormed (.registerWrite none [] noSupply) = true := by decide

theorem test_HostWrites_apply :
    (List.replicate 8192 (0 : Byte)).length ≤ 8192 ∧ (0x7FF + 1) % 8192 = 0x800 ∧ (0x1FFF + 1) % 8192 = 0 :=
  ⟨Nat.le_of_eq (List.length_replicate ..), by decide, by decide⟩

/-- A walker in a state at slot 0, whose card is posted or not. -/
def walking (st : WalkerState) (card : Bool) : State :=
  let s := if card then posted 6 [(8, u32 1000)] reset else reset
  { s with walk := { Walker.reset with state := st, recheckTimer := some aTimer } }

theorem test_ControlAndWaking_apply :
    (∀ st card, (walking st card).reports = [] ∧ (walking st card).walk.state = st ∧ (walking st card).walk.recheckTimer = some aTimer ∧
      (walking st card).takeable 0 = card) ∧ reset.walk.recheckTimer = none := by
  refine ⟨fun st card => ?_, rfl⟩
  cases st <;> cases card <;> decide +kernel

theorem test_Transfers_apply :
    wellFormed (.memoryRead (some 0x1FFF) 1) = true ∧ encodeTransfer (.memoryRead (some 0x1FFF) 1) = some [0x31, 0xFF, 0x1F, 0] ∧
      wellFormed (.nudge 7 noSupply) = true ∧ encodeTransfer (.nudge 7 noSupply) = some [0x36, 3, 0, 7, 0] := by decide

/-! ### A walker that is ready for a card of each kind -/

theorem ready_of (s : State) (kind : Option CardKind)
    (h : (decide (s.walk.state = .running) && s.takeable s.walk.index && decide (s.cardKind s.walk.index = kind) &&
      decide (s.budget.entries.length = 12) && decide (s.bld.curve.length ≤ 12)) = true) : s.ready kind := by
  simp only [Bool.and_eq_true, decide_eq_true_eq] at h
  exact ⟨h.1.1.1.1, h.1.1.1.2, h.1.1.2, h.1.2, h.2⟩

theorem test_SetPanelAndSetLight_apply : (posted 1 [] reset).ready (some .setPanel) ∧ (posted 4 [] reset).ready (some .setLight) :=
  ⟨ready_of _ _ (by decide +kernel), ready_of _ _ (by decide +kernel)⟩

theorem test_SetCurve_applies :
    let s (n : Nat) := posted 2 [(8, u8 n), (12, u32 0), (16, u32 2 ++ u32 4)] reset
    (∀ n, n = 1 ∨ n = 13 ∨ n = 2 ∨ n = 3 ∨ n = 12 → (s n).ready (some .setCurve) ∧ (s n).param (s n).walk.index 8 1 = n) ∧
      (s 3).cardPoints 0 2 = [⟨0, 0⟩, ⟨2, 0⟩] ∧ (s 12).cardPoints 0 4 = [⟨0, 0⟩, ⟨2, 0⟩, ⟨4, 0⟩, ⟨0, 0⟩] := by
  refine ⟨fun n h => ?_, by decide +kernel, by decide +kernel⟩
  rcases h with rfl | rfl | rfl | rfl | rfl <;> exact ⟨ready_of _ _ (by decide +kernel), by decide +kernel⟩

/-- A card whose byte at an offset is n. -/
def withByte (kind off n : Nat) (more : Fields) : State := posted kind ((off, u8 n) :: more) reset

theorem test_SetBrightness_applies :
    ∀ n, n = 0 ∨ n = 1 ∨ n = 3 ∨ n = 4 → (withByte 3 8 n []).ready (some .setBrightness) ∧ (withByte 3 8 n []).param 0 8 1 = n := by
  intro n h
  rcases h with rfl | rfl | rfl | rfl <;> exact ⟨ready_of _ _ (by decide +kernel), by decide +kernel⟩

theorem test_SetLoadBaseLoadAndPowerPolicy_apply :
    (∀ n, n = 3 ∨ n = 4 ∨ n = 11 ∨ n = 12 → (withByte 5 8 n []).ready (some .setLoad) ∧ (withByte 5 8 n []).param 0 8 1 = n) ∧
      (posted 6 [(8, u32 200001)] reset).ready (some .setBaseLoad) ∧
      ∀ n, n = 0 ∨ n = 1 ∨ n = 2 ∨ n = 3 → (withByte 7 8 n []).ready (some .setPowerPolicy) ∧ (withByte 7 8 n []).param 0 8 1 = n := by
  refine ⟨fun n h => ?_, ready_of _ _ (by decide +kernel), fun n h => ?_⟩ <;>
    rcases h with rfl | rfl | rfl | rfl <;> exact ⟨ready_of _ _ (by decide +kernel), by decide +kernel⟩

theorem test_SetSourceTripAndSetCharge_apply :
    (∀ n, n = 0 ∨ n = 1 ∨ n = 3 ∨ n = 4 → (withByte 8 8 n [(9, u8 2 ++ u8 20)]).ready (some .setSourceTrip)) ∧
      (Source.ofCode 0 = none ∧ Source.ofCode 1 = some .inlet ∧ Source.ofCode 3 = some .packB ∧ Source.ofCode 4 = none) ∧
      (twoOfCode 0 = none ∧ twoOfCode 1 = some false ∧ twoOfCode 2 = some true) ∧
      (8000 + 400 * 20 < 16001 ∧ 15999 < 8000 + 400 * 20) ∧
      ∀ n, n = 0 ∨ n = 1 ∨ n = 2 → (withByte 9 8 n []).ready (some .setCharge) ∧ (withByte 9 8 n []).param 0 8 1 = n ∧
        (withByte 9 8 n []).param 0 9 1 = 0 := by
  refine ⟨fun n h => ?_, by decide, by decide, by decide, fun n h => ?_⟩
  · rcases h with rfl | rfl | rfl | rfl <;> exact ready_of _ _ (by decide +kernel)
  · rcases h with rfl | rfl | rfl <;> exact ⟨ready_of _ _ (by decide +kernel), by decide +kernel, by decide +kernel⟩

/-- Both packs candidates with a lower charge in bay B, and with equal charges: a new choice, and a bay that is kept. -/
theorem test_Candidates_apply :
    let s (charge : Nat) (kept : Option Bay) : State :=
      { ((charging .rising).setBayRec .b (bayIn .seated)).setPack .b { online with snapshot := some (snap charge 250 36000) } with
        chg := { (charging .rising).chg with bay := kept } }
    ((s 59 none).candidate .a = true ∧ (s 59 none).candidate .b = true ∧ (s 59 none).chooseBay = some .b) ∧
      (s 60 none).chooseBay = some .a ∧ (s 59 (some .a)).chooseBay = some .a ∧ (s 100 none).candidate .b = false ∧
      reset.chooseBay = none := by decide +kernel

/-- A charger that the card leaves in CHARGING, and one that it leaves in IDLE. -/
theorem test_Charge_result_applies :
    let s : State := charging .rising
    (posted 9 [(8, u8 1 ++ u8 1)] s).ready (some .setCharge) ∧ s.chgEvaluate.chg.state = .charging ∧ s.chgEvaluate.chg.bay = some .a ∧
      reset.chgEvaluate.chg.state ≠ .charging :=
  ⟨ready_of _ _ (by decide +kernel), by decide +kernel, by decide +kernel, by decide +kernel⟩

theorem test_SetThermal_applies :
    let s (n : Nat) (t3 : Int) := withByte 10 8 n [(10, i16 (-500)), (12, i16 550), (14, i16 t3)]
    (∀ n, n = 0 ∨ n = 1 ∨ n = 5 ∨ n = 6 → (s n 1300).ready (some .setThermal)) ∧ (s 1 551).paramSigned 0 10 = -500 ∧
      (ZoneName.ofCode 0 = none ∧ ZoneName.ofCode 1 = some .panel ∧ ZoneName.ofCode 5 = some .bayB ∧ ZoneName.ofCode 6 = none) ∧
      (clampInt (-400) 1250 (-500) < clampInt (-400) 1250 550 ∧ clampInt (-400) 1250 550 < clampInt (-400) 1250 1300) ∧
      ¬ clampInt (-400) 1250 550 < clampInt (-400) 1250 550 := by
  refine ⟨fun n h => ?_, by decide +kernel, by decide, by decide, by decide⟩
  rcases h with rfl | rfl | rfl | rfl <;> exact ready_of _ _ (by decide +kernel)

theorem test_SetMotionAndSetClassifier_apply :
    (∀ n, n = 0 ∨ n = 1 ∨ n = 2 → (withByte 11 14 n []).ready (some .setMotion) ∧ (withByte 11 14 n []).param 0 14 1 = n) ∧
      (∀ n, n = 0 ∨ n = 3 ∨ n = 4 → (withByte 12 8 n [(10, u8 1)]).ready (some .setClassifier) ∧
        (withByte 12 8 n [(10, u8 1)]).param 0 8 1 = n ∧ ClassField.ofCode ((withByte 12 8 n [(10, u8 1)]).param 0 10 1) = some .peak) ∧
      ClassField.ofCode 0 = none ∧ ClassField.ofCode 5 = some .fallSeen ∧ ClassField.ofCode 6 = none := by
  refine ⟨fun n h => ?_, fun n h => ?_, by decide, by decide, by decide⟩
  · rcases h with rfl | rfl | rfl <;> exact ⟨ready_of _ _ (by decide +kernel), by decide +kernel⟩
  · rcases h with rfl | rfl | rfl <;> exact ⟨ready_of _ _ (by decide +kernel), by decide +kernel, by decide +kernel⟩

theorem test_SetHoldAndSetGauge_apply :
    (∀ n, n = 0 ∨ n = 1 ∨ n = 2 → (withByte 13 8 n []).ready (some .setHold) ∧ (withByte 13 8 n []).param 0 8 1 = n) ∧
      (posted 13 [(8, u8 1)] (making reset)).ready (some .setHold) ∧
      (posted 13 [(8, u8 0)] (paused ⟨false, false, true⟩ reset)).ready (some .setHold) ∧
      (posted 14 [] (bayA .seated { online with interval := some ⟨0, 1000⟩ } { reset with clock := 249 })).ready (some .setGauge) ∧
      (((249 : Clock) - 0).toNat < clampNat 250 10000 0 ∧ clampNat 250 10000 0 ≤ ((250 : Clock) - 0).toNat) := by
  refine ⟨fun n h => ?_, ready_of _ _ (by decide +kernel), ready_of _ _ (by decide +kernel), ready_of _ _ (by decide +kernel), by decide⟩
  rcases h with rfl | rfl | rfl <;> exact ⟨ready_of _ _ (by decide +kernel), by decide +kernel⟩

/-- A posted card that names bay A, in a state of the two bays. -/
def naming (kind : Nat) (st other : BayState) (p : PackRecord) (limit : Nat) (r : Resource) : State :=
  let s := pressing st other p limit
  posted kind [(8, u8 1)] { s with walk := { s.walk with bayA := r } }

theorem test_ReleaseBay_applies :
    (∀ n, n = 0 ∨ n = 1 ∨ n = 2 ∨ n = 3 → (withByte 16 8 n []).ready (some .releaseBay) ∧ (withByte 16 8 n []).param 0 8 1 = n) ∧
      (naming 16 .seated .empty online 65000 .orphaned).ready (some .releaseBay) ∧
      (naming 16 .seated .preparing online 65000 .free).ready (some .releaseBay) ∧
      (naming 16 .released .empty online 65000 .free).ready (some .releaseBay) ∧
      (naming 16 .seated .empty { online with identWaiting := true } 65000 .free).ready (some .releaseBay) ∧
      (naming 16 .identifying .empty online 65000 .free).ready (some .releaseBay) ∧
      (naming 16 .unusable .empty online 65000 .free).ready (some .releaseBay) ∧
      ((naming 16 .seated .empty online 65000 .free).ready (some .releaseBay) ∧
        ((naming 16 .seated .empty online 65000 .free).project .a).refusal = none) ∧
      (naming 16 .seated .empty online 10 .free).ready (some .releaseBay) ∧
        ((naming 16 .seated .empty online 10 .free).project .a).refusal = some 1 := by
  refine ⟨fun n h => ?_, ready_of _ _ (by decide +kernel), ready_of _ _ (by decide +kernel), ready_of _ _ (by decide +kernel),
    ready_of _ _ (by decide +kernel), ready_of _ _ (by decide +kernel), ready_of _ _ (by decide +kernel),
    ⟨ready_of _ _ (by decide +kernel), by decide +kernel⟩, ready_of _ _ (by decide +kernel), by decide +kernel⟩
  rcases h with rfl | rfl | rfl | rfl <;> exact ⟨ready_of _ _ (by decide +kernel), by decide +kernel⟩

theorem test_IdentifyPack_applies :
    (∀ n, n = 0 ∨ n = 1 ∨ n = 2 ∨ n = 3 → (withByte 17 8 n []).ready (some .identifyPack) ∧ (withByte 17 8 n []).param 0 8 1 = n) ∧
      (naming 17 .seated .empty online 0 .orphaned).ready (some .identifyPack) ∧
      (naming 17 .seated .empty online 0 .free).ready (some .identifyPack) ∧
      (naming 17 .seated .empty (busy .poll [] 0 online) 0 .free).ready (some .identifyPack) ∧
      (naming 17 .unusable .empty online 0 .free).ready (some .identifyPack) ∧
      (naming 17 .released .empty online 0 .free).ready (some .identifyPack) := by
  refine ⟨fun n h => ?_, ready_of _ _ (by decide +kernel), ready_of _ _ (by decide +kernel), ready_of _ _ (by decide +kernel),
    ready_of _ _ (by decide +kernel), ready_of _ _ (by decide +kernel)⟩
  rcases h with rfl | rfl | rfl | rfl <;> exact ⟨ready_of _ _ (by decide +kernel), by decide +kernel⟩

/-- A posted card at a park in a state, the detector in another. -/
def parking (kind : Nat) (st : ParkState) (ack : Bool) (d : Detector) (r : Resource) : State :=
  posted kind [] { reset with park := ⟨st, none, true, ack⟩, mot := { Motion.reset with detector := d }, walk := { Walker.reset with park := r } }

theorem test_ParkCards_apply :
    (∀ st ack, (parking 18 st ack .idle .free).ready (some .park) ∧ (parking 18 st ack .idle .free).park.state = st) ∧
      (parking 18 .parked true .idle .orphaned).ready (some .park) ∧ (parking 19 .parked true .idle .orphaned).ready (some .releasePark) ∧
      (∀ d, (parking 19 .parked true d .free).ready (some .releasePark) ∧ (parking 19 .parked true d .free).mot.detector = d) := by
  refine ⟨fun st ack => ?_, ready_of _ _ (by decide +kernel), ready_of _ _ (by decide +kernel), fun d => ?_⟩
  · cases st <;> cases ack <;> exact ⟨ready_of _ _ (by decide +kernel), rfl⟩
  · cases d <;> exact ⟨ready_of _ _ (by decide +kernel), rfl⟩

theorem test_UnknownKinds_apply :
    (posted 0x0F [] reset).ready none ∧ (posted 0x0F [] reset).reports = [] ∧ reset.walk.state ≠ .running ∧
      (walking .running false).walk.state = .running ∧ (walking .running false).takeable 0 = false ∧
      (walking .running true).takeable 0 = true ∧ (walking .running true).cardKind 0 ≠ some .park :=
  ⟨ready_of _ _ (by decide +kernel), rfl, by decide, by decide, by decide, by decide +kernel, by decide +kernel⟩

/-! ### The invariants hold of a machine at work, whose next step they are kept by -/

/-- IN feeds and charges the pack of bay A at the fast rate, bay B is RELEASED, the backlight is lit within its grant, the detector is
FALLING under its hold, a slot is held, the bits stand. -/
def atWork : State :=
  let s := lit (held (charging .rising))
  { s.setBayRec .b (bayIn .released) with
    pending := [.secondsTick]
    chg := { s.chg with state := .charging, fast := true, request := 45000, set := 45000, en := true }
    budget := { s.budget with
      capacity := 60000, base := 1000, headroom := 59000
      entries := (s.budget.entries.set 2 ⟨.backlight, 7, 4000, 71, 4000, .granted⟩).set 3 ⟨.charger, 3, 45000, 5000, 45000, .granted⟩ }
    bld := { Bld.reset with
      capped := 500, thermalCap := 1023, boostCap := 511, budgetCap := 454, ceiling := 454, present := 454, lastGrant := 4000, lastState := .granted
      token := .charger }
    mot := { Motion.reset with detector := .falling, fall := 64 }
    park := { Park.reset with state := .requested, latch := true }
    path := { (paused ⟨true, false, false⟩ reset).path with postImpact := none }
    attn := ⟨AttnBit.word .parkLatched, 0x7FFF⟩
    mem := [(0x805, 3)] }

theorem test_Memory_invariant_applies :
    atWork.tablesSound ∧ atWork.memorySound ∧ (∀ a, a < 0x40 → atWork.byte a = Mem.background a) ∧ ∃ t, step atWork = .next t := by
  refine ⟨by unfold State.tablesSound; decide +kernel, by unfold State.memorySound; decide +kernel, ?_, ⟨_, rfl⟩⟩
  intro a ha
  have h : ∀ b : Fin 0x40, atWork.byte b = Mem.background b := by decide +kernel
  exact h ⟨a, ha⟩

theorem test_Bay_invariants_apply : atWork.locksSound ∧ atWork.oneOpening := by
  unfold State.locksSound BayRecord.lockSound State.oneOpening
  decide +kernel

/-- In `field` both packs feed from SEATED bays. -/
theorem test_Switch_invariants_apply :
    atWork.switchesSound ∧ field.switchesSound ∧ field.smon.packA.closed = true ∧ (atWork.bay .b).state = .released ∧
      (atWork.source .packB).closed = false := by
  refine ⟨fun x h => ?_, fun x _ => Or.inl ?_, rfl, rfl, rfl⟩
  · cases x <;> exact absurd h (by decide +kernel)
  · cases x <;> rfl

/-- `field` is at work with the token, the reset state is dark. -/
theorem test_Backlight_invariants_apply :
    (atWork.bldHanded ∧ field.bldHanded) ∧ (atWork.capsSound ∧ field.capsSound ∧ field.bld.dutySound) ∧
      field.bld.normDuty < field.bld.present ∧ reset.darkSound ∧ reset.psd.platform ≠ .active := by
  refine ⟨⟨?_, ?_⟩, ⟨?_, ?_, ?_⟩, ?_, ?_, ?_⟩
  · unfold State.bldHanded; decide +kernel
  · unfold State.bldHanded; decide +kernel
  · unfold State.capsSound; decide +kernel
  · unfold State.capsSound; decide +kernel
  · unfold Bld.dutySound; decide +kernel
  · decide +kernel
  · intro _; decide +kernel
  · decide +kernel

theorem test_Charger_invariants_apply : atWork.chgHanded ∧ atWork.factorSound ∧ atWork.fastSound ∧ atWork.chg.fast = true := by
  unfold State.chgHanded State.factorSound State.fastSound
  decide +kernel

theorem test_Attention_invariant_applies :
    atWork.levelsSound ∧ atWork.attnBit .parkLatched = true ∧ wellFormed .secondsTick = true := by
  refine ⟨fun b h => ?_, by decide +kernel, by decide⟩
  revert h
  cases b <;> decide +kernel

theorem test_Grants_invariant_applies : atWork.grantsSound := by unfold State.grantsSound; decide +kernel

theorem test_Duty_invariant_applies : atWork.bld.dutySound := by unfold Bld.dutySound; decide +kernel

theorem test_Charging_invariants_apply : atWork.chg.powerSound ∧ atWork.chg.state = .charging ∧ atWork.chargeSound :=
  ⟨by unfold Charger.powerSound; decide +kernel, rfl, fun _ => ⟨.a, by decide +kernel⟩⟩

theorem test_Motion_invariants_apply : atWork.freefallSound ∧ atWork.parkSound := by
  refine ⟨?_, ?_⟩
  · unfold State.freefallSound; exact ⟨fun _ => Or.inl rfl, fun _ => rfl⟩
  · intro _; decide +kernel

theorem test_Transfer_invariant_applies : atWork.path.recordSound ∧ atWork.path.holdSound := by
  unfold Path.recordSound Path.holdSound
  decide +kernel

/-- A path in BROWNOUT with every switch open, and one that feeds under a transfer record. -/
theorem test_Feeding_invariants_apply :
    ({ reset with path := { Path.reset with mode := .brownout } } : State).brownoutSound ∧ atWork.brownoutSound ∧
      atWork.path.mode ≠ .brownout ∧ atWork.fedSound ∧ atWork.path.transfer.isSome = true := by
  refine ⟨fun _ => by decide, fun h => absurd h (by decide), by decide, ⟨fun _ => by decide, fun r h => ?_⟩, rfl⟩
  cases h
  decide

theorem test_Settings_invariant_applies : atWork.settingsSound := by
  refine ⟨?_, ?_, ?_, ?_⟩
  · unfold Bld.settingsSound; decide +kernel
  · unfold Bld.curveSound; decide +kernel
  · unfold State.powerSettingsSound; decide +kernel
  · unfold State.sensorSettingsSound Zone.tripsSound
    refine ⟨?_, ?_, ?_, ?_, ?_, ?_⟩ <;> decide +kernel

theorem test_Slots_invariant_applies : atWork.slotsDistinct := by
  intro m n slot tag tag' h1 h2
  have e : atWork.walk = (held reset).walk := by decide +kernel
  rw [e] at h1 h2
  exact test_PlatformReset_applies.2.2.2 m n slot tag tag' h1 h2

/-- A claimed slot other than 7, an address of the ring, one of the host area, and a command that is none of those excepted. -/
theorem test_Writers_apply :
    atWork.tablesSound ∧ (∃ t, exec .secondsTick atWork = .next t) ∧ Mem.partWritten 0x1200 = false ∧ Mem.partWritten 0x43 = false ∧
      (∀ m tag, atWork.walk.resource m ≠ .held 7 tag) ∧ (7 : BitVec 5) ≠ atWork.walk.index := by
  refine ⟨test_Memory_invariant_applies.1, ⟨_, rfl⟩, by decide, by decide, ?_, by decide +kernel⟩
  have e : atWork.walk = (held reset).walk := by decide +kernel
  intro m tag
  rw [e]
  cases m <;> simp [held, reset, State.reset, Walker.reset, Walker.resource]

/-! ### The arithmetic -/

theorem test_Zone_levels_apply :
    let z (level : Nat) : Zone := { Therm.reset.bayB with level }
    (z 1).level < 2 ∧ ((z 1).t1 ≤ 550 ∧ (z 1).t2 ≤ 550 ∧ ¬ (z 1).t3 ≤ 550) ∧ (z 0).t1 = 450 ∧ (z 0).t2 = 550 ∧ (z 0).t3 = 600 ∧ (z 0).hyst = 30 ∧
      (z 3).nextLevel 569 = 2 ∧ (z 3).nextLevel 570 = 3 ∧ (z 3).failed.fault = true := by decide +kernel

theorem test_Light_arithmetic_applies :
    (100 ≤ 160 * 160 / 256 ∧ 0 + 160 * 160 / 256 = 100 ∧ 65534 * 2 / 1 ≤ 131071 ∧ 131071 < 65536 * 2 / 1) ∧
      (60000 ≤ 60000 ∧ ¬ 60000 ≤ 59999 ∧ 1999 < 2000 ∧ ¬ 2000 < 2000) ∧
      ((0 : Nat) < 131071 ∧ smooth 0 131071 16 2 = 131071 ∧ smooth 131071 0 8 16 = 0) := by decide +kernel

theorem test_Backlight_arithmetic_applies :
    defaultCurve.Pairwise (fun p q => p.lux < q.lux) ∧ defaultCurve.head? = some ⟨0, 40⟩ ∧ defaultCurve.getLast? = some ⟨100000, 1000⟩ ∧
      defaultCurve = [] ++ ⟨0, 40⟩ :: ⟨50, 80⟩ :: defaultCurve.drop 2 ∧ (0 ≤ 49 ∧ 49 < 50 ∧ ¬ 50 < 50) ∧ dutyPower 9000 767 ≤ 6748 := by
  decide +kernel

/-- A derivation that hands a request over, and one that hands nothing. -/
theorem test_Derivation_applies :
    (let b := (lit reset).bld.figures true; b.request ≠ dutyPower b.power b.capped) ∧ reset.bld.request = 0 ∧ reset.active = false ∧
      (lit reset).tablesSound := by
  refine ⟨by decide +kernel, rfl, rfl, by unfold State.tablesSound; decide⟩

/-- A base load that sheds what was granted; the three answers of a projection. -/
theorem test_Capacity_applies :
    let s : State := { field with budget := { field.budget with base := 56000 } }
    ((s.budget.entry 2).state = .granted ∧ (s.computeTable.budget.entry 2).state = .granted ∧ (s.budget.entry 5).state = .granted ∧
      (s.computeTable.budget.entry 5).state = .shed) ∧
      (field.project .b).refusal = none ∧ (s.project .b).refusal = some 1 ∧
      (({ field with budget := { field.budget with swapMargin := 20000 } } : State).project .b).refusal = some 2 := by decide +kernel

theorem test_Grant_arithmetic_applies :
    (∀ e ∈ table46, e.priority ≤ 7) ∧ ((grantTable 10400 (table46.set 1 ⟨.lockB, 7, 2400, 2400, 0, .inactive⟩)).map Entry.state).take 6 =
      [.inactive, .granted, .granted, .inactive, .granted, .shed] := by decide +kernel

/-- An entry short of its request with later ones at their floors, and a recompute that changes a lock's grant. -/
theorem test_Extras_apply :
    let old := table46.set 1 ⟨.lockB, 7, 2400, 2400, 0, .inactive⟩
    let new := grantTable 10400 old
    ((new.getD 2 (.reset .host 0)).state = .granted ∧ (new.getD 2 (.reset .host 0)).grant < (old.getD 2 (.reset .host 0)).request ∧
      (new.getD 4 (.reset .host 0)).state = .granted) ∧
      (let s : State := { field with budget := { field.budget with
        entries := field.budget.entries.set 0 ⟨.lockA, 7, 2400, 2400, 0, .inactive⟩ } }
      (s.computeTable.budget.entry (lockIndex .a)).grant ≠ (s.budget.entry (lockIndex .a)).grant) := by decide +kernel

theorem test_Impact_arithmetic_applies :
    dropHeight 65535 = 65535 ∧ dropHeight 2924 = 65505 ∧ tailgate.kind ≠ .shock ∧ Icl.reset.severity ⟨.shock, 0, 5999, none, 0, 0⟩ = 0 := by
  decide +kernel

/-- A classifier that gives a severity to every record, with so many records unread. -/
def unread (n severity : Nat) : State :=
  { reset with icl := { Icl.reset with
    written := BitVec.ofNat 8 n, rule0 := ⟨true, .peak, 0, false, false, severity⟩, rule1 := Icl.reset.rule3, rule2 := Icl.reset.rule3 } }

theorem test_Records_apply :
    (recordImage reset tailgate 41).length = 32 ∧
      (∀ n, n = 0 ∨ n = 15 ∨ n = 16 ∨ n = 17 → ((unread n 0).icl.written - (unread n 0).byte 0x43).toNat = n) ∧
      (∀ k, k = 0 ∨ k = 1 ∨ k = 2 ∨ k = 3 → (unread 15 k).icl.severity tailgate = k) ∧ (unread 16 3).tablesSound := by
  refine ⟨by decide +kernel, fun n h => ?_, fun k h => ?_, by unfold State.tablesSound; decide⟩ <;>
    rcases h with rfl | rfl | rfl | rfl <;> decide +kernel

/-- Records placed at 15 and at 17 unread, and one lost at 16. -/
theorem test_record_edges :
    ((unread 15 0).logImpact tailgate).icl.written = 16 ∧ ((unread 16 0).logImpact tailgate).icl.lost = 1 ∧
      ((unread 17 0).logImpact tailgate).icl.written = 18 := by decide +kernel

/-! ### What PATH closes and opens -/

/-- A source that is there or not, its switch closed or open. -/
def src (live closed : Bool) : SourceEntry :=
  { SourceEntry.reset 2 with presence := if live then .present else .absent, above := live, closed }

/-- A path in a state with three sources, both packs seated and SUSPECT or not. -/
def onPath (m : PathMode) (r : Option Transfer) (suspect : Bool) (i a b : SourceEntry) : State :=
  { ((bayA .seated { online with suspect } reset).setBayRec .b (bayIn .seated)).setPack .b { online with suspect } with
    smon := { Smon.reset with inlet := i, packA := a, packB := b }, path := { Path.reset with mode := m, transfer := r } }

/-- Which packs are eligible and which are a last resort: both, by SUSPECT alone. -/
theorem test_Eligibility_applies :
    let s (suspect : Bool) := onPath .steady none suspect (src false false) (src true true) (src true false)
    (s false).eligible .packA = true ∧ (s true).eligible .packA = false ∧ (s true).lastResort .a = true ∧ (s true).lastResort .b = true ∧
      (s false).preferred = .single .packA ∧ (s true).preferred = .empty := by decide +kernel

/-- IN comes back to a path that pack A feeds; pack A is left over beside IN; nothing is due. In BROWNOUT a preferred set, a last resort,
and none. -/
theorem test_Evaluation_applies :
    ((onPath .steady none false (src true false) (src true true) (src true false)).evaluate false).path.mode = .making ∧
      ((onPath .steady none false (src true true) (src true true) (src true false)).evaluate false).feeding = .single .inlet ∧
      ((onPath .steady none false (src true true) (src true false) (src true false)).evaluate false).feeding = .single .inlet ∧
      ((onPath .brownout none false (src false false) (src true false) (src true false)).evaluate false).feeding = .single .packA ∧
      ((onPath .brownout none true (src false false) (src true false) (src true false)).evaluate false).feeding = .single .packA ∧
      ((onPath .brownout none true (src false false) (src false false) (src false false)).evaluate false).lines.pfw = true := by
  decide +kernel

/-- The loss of pack A: beside IN without a transfer, as the outgoing, as an incoming and as the only incoming that is left; and as the only
source, where IN, the last resort B or nothing is there. -/
theorem test_Rescue_applies :
    let r (i o : SourceSet) : Option Transfer := some ⟨i, o, .inReturn, 0, some aTimer⟩
    let t (m : PathMode) (r : Option Transfer) (suspect live i b fed : Bool) : State :=
      (onPath m r suspect (src live i) (src true true) (src b fed)).rescue .packA
    (t .steady none false true true true false).feeding = .single .inlet ∧
      (t .making (r (.single .inlet) (.single .packA)) false true true true false).path.transfer = r (.single .inlet) .empty ∧
      (t .making (r (.single .packA) (.single .inlet)) false true true true false).path.transfer = none ∧
      (t .making (r ⟨false, true, true⟩ (.single .inlet)) false false false true true).feeding = .single .packB ∧
      (t .steady none false true false true false).feeding = .single .inlet ∧
      (t .steady none true false false true false).path.mode = .steady ∧
      ((onPath .steady none false (src false false) (src false true) (src false false)).rescue .packA).lines.pfw = true := by
  decide +kernel

end Sys2Proof.Machine.Tests
end

