-- ==== Sys2Proof/Proofs/ZoneLevels.lean ====
section
/-! PROOF. R101: the level of a zone after an update. The update brings the level between n_up and n_hold, and keeps a level that is there
already; that is why a second update from the same temperature changes nothing. -/

namespace Sys2Proof.Machine

namespace Zone

theorem count_eq (z : Zone) (t : Int) :
    z.count t = (if z.t1 ≤ t then 1 else 0) + (if z.t2 ≤ t then 1 else 0) + (if z.t3 ≤ t then 1 else 0) := by
  simp only [count, Bool.toNat, Bool.cond_decide]

@[simp] theorem count_with_level (z : Zone) (n : Nat) (t : Int) : ({ z with level := n } : Zone).count t = z.count t := rfl

theorem count_mono (z : Zone) {t u : Int} (h : t ≤ u) : z.count t ≤ z.count u := by
  have reached (trip : Int) : (decide (trip ≤ t)).toNat ≤ (decide (trip ≤ u)).toNat := by
    rcases Decidable.em (trip ≤ t) with ht | ht
    · rewrite [decide_eq_true ht, decide_eq_true (Int.le_trans ht h)]
      exact Nat.le_refl 1
    · rewrite [decide_eq_false ht]
      exact Nat.zero_le _
  exact Nat.add_le_add (Nat.add_le_add (reached z.t1) (reached z.t2)) (reached z.t3)

/-- R101. n_hold is never less than n_up. -/
theorem count_le_count_add_hyst (z : Zone) (t : Int) : z.count t ≤ z.count (t + z.hyst) := z.count_mono (by omega)

theorem nextLevel_of_lt_count {z : Zone} {t : Int} (h : z.level < z.count t) : z.nextLevel t = z.count t := if_pos h

theorem nextLevel_of_hold_lt {z : Zone} {t : Int} (hup : z.count t ≤ z.level) (hhold : z.count (t + z.hyst) < z.level) :
    z.nextLevel t = z.count (t + z.hyst) := by
  rw [nextLevel, if_neg (Nat.not_lt.mpr hup), if_pos hhold]

theorem nextLevel_of_between {z : Zone} {t : Int} (hup : z.count t ≤ z.level) (hhold : z.level ≤ z.count (t + z.hyst)) :
    z.nextLevel t = z.level := by
  rw [nextLevel, if_neg (Nat.not_lt.mpr hup), if_neg (Nat.not_lt.mpr hhold)]

theorem nextLevel_between (z : Zone) (t : Int) :
    z.count t ≤ z.nextLevel t ∧ z.nextLevel t ≤ z.count (t + z.hyst) := by
  have hle := z.count_le_count_add_hyst t
  rcases Nat.lt_or_ge z.level (z.count t) with hrise | hup
  · rw [nextLevel_of_lt_count hrise]
    exact ⟨Nat.le_refl _, hle⟩
  · rcases Nat.lt_or_ge (z.count (t + z.hyst)) z.level with hfall | hhold
    · rw [nextLevel_of_hold_lt hup hfall]
      exact ⟨hle, Nat.le_refl _⟩
    · rw [nextLevel_of_between hup hhold]
      exact ⟨hup, hhold⟩

/-- R101. Applying the same temperature twice changes the level once at most. -/
theorem nextLevel_idem (z : Zone) (t : Int) : ({ z with level := z.nextLevel t } : Zone).nextLevel t = z.nextLevel t := by
  obtain ⟨hup, hhold⟩ := z.nextLevel_between t
  exact nextLevel_of_between hup hhold

/-- R101's example: at 53.0 °C one default pack trip is reached, and two with the hysteresis of 3.0 °C added. -/
theorem count_default_pack_at_530 {z : Zone} (h1 : z.t1 = 450) (h2 : z.t2 = 550) (h3 : z.t3 = 600) (hh : z.hyst = 30) :
    z.count 530 = 1 ∧ z.count (530 + z.hyst) = 2 := by
  simp [count, h1, h2, h3, hh]

theorem withTrips_level_of_fault_or_forced {z : Zone} (h : z.fault = true ∨ z.forced = true) (t1 t2 t3 : Int) (hyst : Nat) :
    (z.withTrips t1 t2 t3 hyst).level = z.level := by
  rw [withTrips, if_pos ((Bool.or_eq_true _ _).mpr h)]

end Zone

/-- Settles O53, from the bounds that an update puts on the level. -/
theorem zoneLevelsFollowTheirTrips : Obligations.ZoneLevelsFollowTheirTrips := by
  intro z t
  simp only [← Zone.count_eq]
  refine ⟨Zone.nextLevel_of_lt_count, Zone.nextLevel_of_hold_lt, Zone.nextLevel_of_between, z.count_le_count_add_hyst t,
    z.nextLevel_idem t, ?atFiftyThree, fun t1 t2 t3 hyst h => Zone.withTrips_level_of_fault_or_forced h t1 t2 t3 hyst⟩
  case atFiftyThree =>
    rintro h1 h2 h3 hh rfl
    obtain ⟨hup, hhold⟩ := Zone.count_default_pack_at_530 h1 h2 h3 hh
    constructor
    · intro warming
      rw [Zone.nextLevel_of_lt_count (by omega), hup]
    · intro cooling
      rw [Zone.nextLevel_of_between (by omega) (by omega), cooling]

end Sys2Proof.Machine
end

