-- ==== Sys2Proof/Proofs/LightGain.lean ====
section
/-! PROOF. R113 and R114: the raw lux and the next gain. Only bright counts lower the gain and only dim ones raise it; the two bounds lie so
far apart that counts which moved the gain one way, taken again at the new gain, never move it back. -/

namespace Sys2Proof.Machine

/-! ### The raw lux (R113) -/

theorem rawLux_of_le_share {c i r : Nat} (h : c ≤ i * r / 256) (g : Nat) : rawLux c i r g = 0 := by
  rw [rawLux, Nat.sub_eq_zero_of_le h, Nat.zero_mul, Nat.zero_div, Nat.min_zero]

theorem rawLux_of_visible {c i r visible : Nat} (h : visible + i * r / 256 = c) (g : Nat) :
    rawLux c i r g = min Config.luxMax (visible * 2 / g) := by
  rw [rawLux, ← h, Nat.add_sub_cancel]

theorem rawLux_without_infrared (c r g : Nat) : rawLux c 0 r g = min Config.luxMax (c * 2 / g) :=
  rawLux_of_visible (by rw [Nat.zero_mul, Nat.zero_div, Nat.add_zero]) g

theorem rawLux_without_rejection (c i g : Nat) : rawLux c i 0 g = min Config.luxMax (c * 2 / g) :=
  rawLux_of_visible (by rw [Nat.mul_zero, Nat.zero_div, Nat.add_zero]) g

/-- R113's table: the largest raw lux from an unsaturated count. -/
theorem rawLux_greatest (r : Nat) : rawLux 65534 0 r 1 = 131068 ∧ rawLux 65534 0 r 8 = 16383 ∧ rawLux 65534 0 r 64 = 2047 := by
  simp only [rawLux_without_infrared]
  decide

/-! ### The next gain (R114) -/

section
variable {c i g : Nat}

theorem nextGain_of_bright (hbright : 60000 ≤ c ∨ 60000 ≤ i) (hg : 1 < g) : nextGain c i g = g / 8 := if_pos ⟨hbright, hg⟩

theorem nextGain_of_dim (hc : c < 2000) (hi : i < 2000) (hg : g < 64) : nextGain c i g = g * 8 := by
  rw [nextGain, if_neg (by omega), if_pos ⟨hc, hi, hg⟩]

theorem nextGain_of_neither (hlower : ¬ ((60000 ≤ c ∨ 60000 ≤ i) ∧ 1 < g)) (hraise : ¬ (c < 2000 ∧ i < 2000 ∧ g < 64)) :
    nextGain c i g = g := by
  rw [nextGain, if_neg hlower, if_neg hraise]

theorem le_nextGain_of_not_bright (h : ¬ (60000 ≤ c ∨ 60000 ≤ i)) : g ≤ nextGain c i g := by
  rw [nextGain, if_neg (h ·.1)]
  split <;> omega

theorem nextGain_le_of_not_dim (h : 2000 ≤ c ∨ 2000 ≤ i) : nextGain c i g ≤ g := by
  rw [nextGain, if_neg (c := c < 2000 ∧ _) (by omega)]
  split <;> omega

theorem bright_of_nextGain_lt (h : nextGain c i g < g) : 60000 ≤ c ∨ 60000 ≤ i :=
  Decidable.byContradiction fun hdark => Nat.not_lt.mpr (le_nextGain_of_not_bright hdark) h

theorem dim_of_lt_nextGain (h : g < nextGain c i g) : c < 2000 ∧ i < 2000 := by
  have hdim : ¬ (2000 ≤ c ∨ 2000 ≤ i) := fun hlit => Nat.not_lt.mpr (nextGain_le_of_not_dim hlit) h
  omega

theorem nextGain_mem (c i : Nat) (hg : g = 1 ∨ g = 8 ∨ g = 64) :
    nextGain c i g = 1 ∨ nextGain c i g = 8 ∨ nextGain c i g = 64 := by
  fun_cases nextGain c i g <;> omega

/-- R114. A raise is not undone by counts that follow the gain. -/
theorem nextGain_ne_of_raised (hg : 0 < g) (h : nextGain c i g = g * 8) : nextGain (c * 8) (i * 8) (g * 8) ≠ g := by
  obtain ⟨hc, hi⟩ := dim_of_lt_nextGain (h ▸ (by omega) : g < nextGain c i g)
  have hup : g * 8 ≤ nextGain (c * 8) (i * 8) (g * 8) := le_nextGain_of_not_bright (by omega)
  omega

/-- R114. A lowering is not undone by counts that follow the gain. -/
theorem nextGain_ne_of_lowered (hg : 0 < g) (h : nextGain c i g = g / 8) : nextGain (c / 8) (i / 8) (g / 8) ≠ g := by
  have hbright := bright_of_nextGain_lt (h ▸ (by omega) : nextGain c i g < g)
  have hdown : nextGain (c / 8) (i / 8) (g / 8) ≤ g / 8 := nextGain_le_of_not_dim (by omega)
  omega

end

/-! ### Steady light -/

/-- R114. The next gain in steady light, whose counts follow the gain: `c` and `i` are what it gives at gain 64. -/
def steadyGain (c i g : Nat) : Nat := nextGain (c * g / 64) (i * g / 64) g

section
variable {c i g : Nat} (hg : g = 1 ∨ g = 8 ∨ g = 64)
include hg

theorem steadyGain_mem : steadyGain c i g = 1 ∨ steadyGain c i g = 8 ∨ steadyGain c i g = 64 := nextGain_mem _ _ hg

theorem steadyGain_stays_lowered (h : steadyGain c i g < g) : steadyGain c i (steadyGain c i g) ≤ steadyGain c i g := by
  have hbright := bright_of_nextGain_lt h
  have hlarge : 1 < g := by have := steadyGain_mem (c := c) (i := i) hg; omega
  have hnext : steadyGain c i g = g / 8 := nextGain_of_bright hbright hlarge
  rw [hnext]
  refine nextGain_le_of_not_dim ?_
  rcases hg with rfl | rfl | rfl <;> omega

theorem steadyGain_stays_raised (h : g < steadyGain c i g) : steadyGain c i g ≤ steadyGain c i (steadyGain c i g) := by
  obtain ⟨hc, hi⟩ := dim_of_lt_nextGain h
  have hsmall : g < 64 := by have := steadyGain_mem (c := c) (i := i) hg; omega
  have hnext : steadyGain c i g = g * 8 := nextGain_of_dim hc hi hsmall
  rw [hnext]
  refine le_nextGain_of_not_bright ?_
  rcases hg with rfl | rfl | rfl <;> omega

/-- R114. Each change goes on in the direction of the first, and there are three gains, so the third integration changes nothing. -/
theorem steadyGain_settles : steadyGain c i (steadyGain c i (steadyGain c i g)) = steadyGain c i (steadyGain c i g) := by
  have hfirst : steadyGain c i g = 1 ∨ steadyGain c i g = 8 ∨ steadyGain c i g = 64 := steadyGain_mem hg
  have hsecond := steadyGain_mem (c := c) (i := i) hfirst
  have hthird := steadyGain_mem (c := c) (i := i) hsecond
  rcases Nat.lt_trichotomy (steadyGain c i g) g with hlower | hsame | hraise
  · have hdown := steadyGain_stays_lowered hg hlower
    rcases Nat.eq_or_lt_of_le hdown with hstay | hagain
    · rw [hstay, hstay]
    · have := steadyGain_stays_lowered hfirst hagain
      omega
  · rw [hsame, hsame, hsame]
  · have hup := steadyGain_stays_raised hg hraise
    rcases Nat.eq_or_lt_of_le hup with hstay | hagain
    · rw [← hstay, ← hstay]
    · have := steadyGain_stays_raised hfirst hagain
      omega

end

/-- Settles O54: R113 from what is left of the count without its IR share, R114 from the two bounds. -/
theorem rawLuxAndNextGainFollowTheirRules : Obligations.RawLuxAndNextGainFollowTheirRules := by
  constructor
  case left =>
    intro c i r g
    refine ⟨fun h => rawLux_of_le_share h g, fun _ visible hvisible _ => ?bounded, rawLux_greatest r,
      (rawLux_without_rejection c i g).trans (rawLux_without_infrared c r g).symm⟩
    case bounded =>
      rw [rawLux_of_visible hvisible g]
      exact ⟨Nat.min_eq_right, fun h => Nat.min_eq_left (Nat.le_of_lt h)⟩
  case right =>
    intro c i g hg
    have hpos : 0 < g := by omega
    exact ⟨nextGain_of_bright, nextGain_of_dim, nextGain_of_neither, nextGain_mem c i hg, fun h _ => nextGain_ne_of_raised hpos h,
      fun h _ => nextGain_ne_of_lowered hpos h, steadyGain_settles hg⟩

end Sys2Proof.Machine
end

