-- ==== Sys2Proof/Proofs/FilteredLux.lean ====
section
/-! PROOF. R115: the filtered lux. The signed step of the rule is one stride of natural length toward the raw lux, never longer than the
distance, so that a sample closes the distance by at least 1 and none passes the raw lux. -/

namespace Sys2Proof.Machine

/-! ### The stride -/

/-- R115. How far F moves at a distance above 0 from the raw lux, with the weight of its direction. -/
def stride (distance weight : Nat) : Nat := max 1 (distance * weight / 16)

theorem stride_pos (d w : Nat) : 0 < stride d w := Nat.le_max_left _ _

theorem stride_le {d w : Nat} (hd : 0 < d) (hw : w ≤ 16) : stride d w ≤ d :=
  Nat.max_le.mpr ⟨hd, Nat.div_le_of_le_mul (Nat.mul_comm 16 d ▸ Nat.mul_le_mul_left d hw)⟩

theorem stride_sixteen {d : Nat} (hd : 0 < d) : stride d 16 = d := by
  rw [stride, Nat.mul_div_cancel d (by decide), Nat.max_eq_right hd]

/-! ### One sample -/

theorem clampInt_of_between {lo hi z : Int} (hlo : lo ≤ z) (hhi : z ≤ hi) : clampInt lo hi z = z := by
  rw [clampInt, if_neg (Int.not_lt.mpr hlo), if_neg (Int.not_lt.mpr hhi)]

/-- R115's step upward: the truncated quotient, or 1 in its place. -/
theorem tdiv_sixteen_or_one (d w : Nat) : (if Int.tdiv (d * w) 16 = 0 then 1 else Int.tdiv (d * w) 16) = (stride d w : Int) := by
  have hquot : Int.tdiv (d * w) 16 = (d * w / 16 : Nat) := by rw [Int.ofNat_tdiv, Int.natCast_mul, Int.cast_ofNat_Int]
  rw [hquot, stride]
  split <;> omega

/-- R115's step downward is the one upward with its sign changed. -/
theorem tdiv_sixteen_or_neg_one (d w : Nat) : (if Int.tdiv (-d * w) 16 = 0 then -1 else Int.tdiv (-d * w) 16) = -(stride d w : Int) := by
  rw [← tdiv_sixteen_or_one, Int.neg_mul, Int.neg_tdiv]
  simp only [Int.neg_eq_zero]
  split <;> rfl

section
variable {f raw rise fall : Nat}

theorem smooth_self (hf : f ≤ 131071) : smooth f f rise fall = f := by
  simp only [smooth, Int.sub_self, Int.zero_mul, Int.zero_tdiv, Int.lt_irrefl, if_true, if_false, Int.add_zero]
  rw [clampInt_of_between (hi := Config.luxMax) (Int.natCast_nonneg f) (Int.ofNat_le.mpr hf), Int.toNat_natCast]

theorem smooth_of_lt (h : f < raw) (hraw : raw ≤ 131071) (hrise : rise ≤ 16) : smooth f raw rise fall = f + stride (raw - f) rise := by
  have hpos : 0 < raw - f := Nat.sub_pos_of_lt h
  have hle := stride_le hpos hrise
  have hdelta : (raw : Int) - f = (raw - f : Nat) := (Int.ofNat_sub (Nat.le_of_lt h)).symm
  simp only [smooth, hdelta, Int.natCast_pos.mpr hpos, if_true, tdiv_sixteen_or_one]
  rw [clampInt_of_between (by omega) (by simp only [Config.luxMax]; omega)]
  omega

theorem smooth_of_gt (h : raw < f) (hf : f ≤ 131071) (hfall : fall ≤ 16) : smooth f raw rise fall = f - stride (f - raw) fall := by
  have hle := stride_le (Nat.sub_pos_of_lt h) hfall
  have hdelta : (raw : Int) - f = -(f - raw : Nat) := by omega
  have hdown : -((f - raw : Nat) : Int) < 0 := by omega
  simp only [smooth, hdelta, Int.lt_asymm hdown, hdown, if_true, if_false, tdiv_sixteen_or_neg_one]
  rw [clampInt_of_between (by omega) (by simp only [Config.luxMax]; omega)]
  omega

theorem smooth_rises (h : f < raw) (hraw : raw ≤ 131071) (hrise : rise ≤ 16) :
    f < smooth f raw rise fall ∧ smooth f raw rise fall ≤ raw := by
  have hpos := stride_pos (raw - f) rise
  have hle := stride_le (Nat.sub_pos_of_lt h) hrise
  rw [smooth_of_lt h hraw hrise]
  omega

theorem smooth_falls (h : raw < f) (hf : f ≤ 131071) (hfall : fall ≤ 16) :
    raw ≤ smooth f raw rise fall ∧ smooth f raw rise fall < f := by
  have hpos := stride_pos (f - raw) fall
  have hle := stride_le (Nat.sub_pos_of_lt h) hfall
  rw [smooth_of_gt h hf hfall]
  omega

theorem smooth_rise_sixteen (h : f < raw) (hraw : raw ≤ 131071) : smooth f raw 16 fall = raw := by
  rw [smooth_of_lt h hraw (Nat.le_refl 16), stride_sixteen (Nat.sub_pos_of_lt h), Nat.add_sub_cancel' (Nat.le_of_lt h)]

theorem smooth_fall_sixteen (h : raw < f) (hf : f ≤ 131071) : smooth f raw rise 16 = raw := by
  rw [smooth_of_gt h hf (Nat.le_refl 16), stride_sixteen (Nat.sub_pos_of_lt h), Nat.sub_sub_self (Nat.le_of_lt h)]

end

/-! ### Samples of a constant raw lux -/

/-- R115. How far F stands from the raw lux, on either side of it. -/
def luxDistance (f raw : Nat) : Nat := (f - raw) + (raw - f)

theorem eq_of_luxDistance_eq_zero {f raw : Nat} (h : luxDistance f raw = 0) : f = raw := by
  unfold luxDistance at h
  omega

section
variable {f raw rise fall : Nat}

/-- R115. F stays between its old value and the raw lux, and a sample closes the distance by at least 1. -/
theorem smooth_between_and_closer (hf : f ≤ 131071) (hraw : raw ≤ 131071) (hrise : rise ≤ 16) (hfall : fall ≤ 16) :
    (min f raw ≤ smooth f raw rise fall ∧ smooth f raw rise fall ≤ max f raw) ∧
      luxDistance (smooth f raw rise fall) raw ≤ luxDistance f raw - 1 := by
  unfold luxDistance
  rcases Nat.lt_trichotomy f raw with hlt | rfl | hgt
  · have := smooth_rises (fall := fall) hlt hraw hrise
    omega
  · rw [smooth_self hf]
    omega
  · have := smooth_falls (rise := rise) hgt hf hfall
    omega

theorem repeat_smooth_closer (hf : f ≤ 131071) (hraw : raw ≤ 131071) (hrise : rise ≤ 16) (hfall : fall ≤ 16) (k : Nat) :
    Nat.repeat (fun g => smooth g raw rise fall) k f ≤ 131071 ∧
      luxDistance (Nat.repeat (fun g => smooth g raw rise fall) k f) raw ≤ luxDistance f raw - k := by
  induction k with
  | zero => exact ⟨hf, Nat.le_refl _⟩
  | succ k ih =>
    obtain ⟨hrange, hclose⟩ := ih
    obtain ⟨⟨_, hmax⟩, hcloser⟩ := smooth_between_and_closer hrange hraw hrise hfall
    exact ⟨Nat.le_trans hmax (Nat.max_le.mpr ⟨hrange, hraw⟩), Nat.le_trans hcloser (Nat.sub_le_sub_right hclose 1)⟩

/-- R115. As many samples as the first distance bring F to the raw lux. -/
theorem repeat_smooth_reaches (hf : f ≤ 131071) (hraw : raw ≤ 131071) (hrise : rise ≤ 16) (hfall : fall ≤ 16) :
    Nat.repeat (fun g => smooth g raw rise fall) (luxDistance f raw) f = raw := by
  obtain ⟨_, hclose⟩ := repeat_smooth_closer hf hraw hrise hfall (luxDistance f raw)
  rw [Nat.sub_self] at hclose
  exact eq_of_luxDistance_eq_zero (Nat.le_zero.mp hclose)

end

/-- Settles O55, from the stride that each direction takes and the distance that each sample closes. -/
theorem filteredLuxApproachesTheRawLux : Obligations.FilteredLuxApproachesTheRawLux := by
  intro f raw rise fall hf hraw _ hrise _ hfall
  refine ⟨fun h => smooth_of_lt h hraw hrise, fun h => smooth_of_gt h hf hfall, ?same,
    (smooth_between_and_closer hf hraw hrise hfall).1, ?closerRising, ?closerFalling, ?riseSixteen, ?fallSixteen,
    luxDistance f raw, repeat_smooth_reaches hf hraw hrise hfall⟩
  case same =>
    rintro rfl
    exact smooth_self hf
  case closerRising =>
    intro h
    obtain ⟨hrises, _⟩ := smooth_rises (fall := fall) h hraw hrise
    exact Nat.sub_lt_sub_left h hrises
  case closerFalling =>
    intro h
    obtain ⟨hreach, hfalls⟩ := smooth_falls (rise := rise) h hf hfall
    exact Nat.sub_lt_sub_right hreach hfalls
  case riseSixteen =>
    rintro rfl h
    exact smooth_rise_sixteen h hraw
  case fallSixteen =>
    rintro rfl h
    exact smooth_fall_sixteen h hf

end Sys2Proof.Machine
end

