-- ==== Sys2Proof/Proofs/BacklightArithmetic.lean ====
section
/-! PROOF. R122, R125, R128 and R129: the curve, the target and the power of a duty. On a curve whose points rise in lux, the points before
one that the filtered lux has reached do not matter; the last point and every segment follow from that. The power of a duty is the least
whole power that carries it, so that it and the budget cap are the two sides of one inequality. -/

namespace Sys2Proof.Machine

/-! ### A segment of the curve (R122) -/

/-- A share of a whole, on either side of 0, lies between 0 and the whole. -/
theorem tdiv_share_between (whole : Int) {num den : Nat} (h : num ≤ den) :
    min whole 0 ≤ Int.tdiv (whole * num) den ∧ Int.tdiv (whole * num) den ≤ max whole 0 := by
  obtain ⟨k, hk⟩ := Int.eq_nat_or_neg whole
  obtain ⟨share, hle, hquot⟩ : ∃ share : Nat, share ≤ k ∧ Int.tdiv (k * num) den = share :=
    ⟨k * num / den, Nat.div_le_of_le_mul (Nat.mul_comm den k ▸ Nat.mul_le_mul_left k h), by rw [Int.ofNat_tdiv, Int.natCast_mul]⟩
  rcases hk with rfl | rfl
  · rw [hquot]
    omega
  · rw [Int.neg_mul, Int.neg_tdiv, hquot]
    omega

section
variable {n m num den : Nat} (h : num ≤ den)
include h

theorem natCast_between : (between n m num den : Int) = n + Int.tdiv (((m : Int) - n) * num) den := by
  have := tdiv_share_between ((m : Int) - n) h
  unfold between
  omega

/-- R122. The line never leaves the luminances of its two ends. -/
theorem between_mem_ends : min n m ≤ between n m num den ∧ between n m num den ≤ max n m := by
  have := tdiv_share_between ((m : Int) - n) h
  have := natCast_between (n := n) (m := m) h
  omega

end

theorem between_start (n m den : Nat) : between n m 0 den = n := by
  have := natCast_between (n := n) (m := m) (Nat.zero_le den)
  rw [Int.natCast_zero, Int.mul_zero, Int.zero_tdiv] at this
  omega

/-! ### The curve (R122) -/

/-- The lux values of a curve rise from point to point. -/
abbrev LuxRises (c : List CurvePoint) : Prop := c.Pairwise (fun p q => p.lux < q.lux)

section
variable {p q : CurvePoint} {rest : List CurvePoint} {f : Nat}

theorem curveAt_of_le_first (h : f ≤ p.lux) : curveAt (p :: rest) f = p.nits := by
  cases rest with
  | nil => rfl
  | cons q rest => exact if_pos h

theorem curveAt_first_segment (hp : p.lux ≤ f) (hq : f < q.lux) :
    curveAt (p :: q :: rest) f = between p.nits q.nits (f - p.lux) (q.lux - p.lux) := by
  rcases Nat.eq_or_lt_of_le hp with rfl | hlt
  · rw [curveAt_of_le_first (Nat.le_refl _), Nat.sub_self, between_start]
  · rw [curveAt, if_neg (Nat.not_le.mpr hlt), if_pos hq]

theorem curveAt_skip_first (hpq : p.lux < q.lux) (hq : q.lux ≤ f) : curveAt (p :: q :: rest) f = curveAt (q :: rest) f := by
  rw [curveAt, if_neg (Nat.not_le.mpr (Nat.lt_of_lt_of_le hpq hq)), if_neg (Nat.not_lt.mpr hq)]

end

/-- The points before one that the filtered lux has reached do not matter. -/
theorem curveAt_skip {front rest : List CurvePoint} {p : CurvePoint} {f : Nat} (hrises : LuxRises (front ++ p :: rest)) (hp : p.lux ≤ f) :
    curveAt (front ++ p :: rest) f = curveAt (p :: rest) f := by
  induction front with
  | nil => rfl
  | cons a front ih =>
    obtain ⟨hfirst, htail⟩ := List.pairwise_cons.mp hrises
    rw [← ih htail]
    cases front with
    | nil => exact curveAt_skip_first (hfirst p List.mem_cons_self) hp
    | cons b front =>
      have hbp : b.lux < p.lux := (List.pairwise_cons.mp htail).1 p (List.mem_append_right _ List.mem_cons_self)
      exact curveAt_skip_first (hfirst b List.mem_cons_self) (Nat.le_trans (Nat.le_of_lt hbp) hp)

section
variable {c : List CurvePoint} {f : Nat}

theorem curveAt_of_le_head {first : CurvePoint} (hfirst : c.head? = some first) (hf : f ≤ first.lux) : curveAt c f = first.nits := by
  obtain ⟨rest, rfl⟩ := List.head?_eq_some_iff.mp hfirst
  exact curveAt_of_le_first hf

theorem curveAt_of_last_le {last : CurvePoint} (hrises : LuxRises c) (hlast : c.getLast? = some last) (hf : last.lux ≤ f) :
    curveAt c f = last.nits := by
  obtain ⟨front, rfl⟩ := List.getLast?_eq_some_iff.mp hlast
  exact curveAt_skip hrises hf

/-- R122. The linear value on a segment, and its bounds. -/
theorem curveAt_segment {front rest : List CurvePoint} {p q : CurvePoint} (hrises : LuxRises (front ++ p :: q :: rest)) (hp : p.lux ≤ f)
    (hq : f < q.lux) :
    (curveAt (front ++ p :: q :: rest) f : Int) =
        p.nits + Int.tdiv (((q.nits : Int) - p.nits) * ((f : Int) - p.lux)) ((q.lux : Int) - p.lux) ∧
      min p.nits q.nits ≤ curveAt (front ++ p :: q :: rest) f ∧ curveAt (front ++ p :: q :: rest) f ≤ max p.nits q.nits := by
  have hinside : f - p.lux ≤ q.lux - p.lux := Nat.sub_le_sub_right (Nat.le_of_lt hq) _
  rw [curveAt_skip hrises hp, curveAt_first_segment hp hq, ← Int.ofNat_sub hp, ← Int.ofNat_sub (Nat.le_trans hp (Nat.le_of_lt hq))]
  exact ⟨natCast_between hinside, between_mem_ends hinside⟩

end

theorem defaultCurve_rises : LuxRises defaultCurve := by decide

/-! ### The target (R125) -/

theorem clampInt_eq_max_min {lo hi z : Int} (h : lo ≤ hi) : clampInt lo hi z = max lo (min hi z) := by
  unfold clampInt
  split <;> omega

section
variable {b : Bld} (curve : Nat)

theorem targetNits_of_auto (h : b.mode = .auto) : (b.targetNits curve : Int) = max 0 (min (b.nFull : Int) (curve + b.offset)) := by
  simp only [Bld.targetNits, h]
  rw [clampInt_eq_max_min (Int.natCast_nonneg _), Int.toNat_of_nonneg (Int.le_max_left _ _)]

theorem targetNits_of_manual (h : b.mode = .manual) : b.targetNits curve = min b.manual b.nFull := by simp only [Bld.targetNits, h]

theorem targetNits_of_off (h : b.mode = .off) : b.targetNits curve = 0 := by simp only [Bld.targetNits, h]

end

/-! ### The power of a duty (R128, R129) -/

/-- R128. A power covers a duty exactly where the power of the duty is no more than it. -/
theorem dutyPower_le_iff {p d g : Nat} : dutyPower p d ≤ g ↔ d * p ≤ 1023 * g := by
  unfold dutyPower ceilDiv
  omega

theorem le_dutyPower (p d : Nat) : d * p ≤ 1023 * dutyPower p d := dutyPower_le_iff.mp (Nat.le_refl _)

theorem dutyPower_lt (p d : Nat) : 1023 * dutyPower p d < d * p + 1023 := by
  unfold dutyPower ceilDiv
  omega

theorem dutyPower_zero (p : Nat) : dutyPower p 0 = 0 := Nat.le_zero.mp (dutyPower_le_iff.mpr (by omega))

/-- R129. The budget cap never costs more than the grant. -/
theorem dutyPower_budgetCap_le (p g : Nat) : dutyPower p (g * 1023 / p) ≤ g :=
  dutyPower_le_iff.mpr (Nat.mul_comm g 1023 ▸ Nat.div_mul_le_self (g * 1023) p)

/-- R129. A grant that covers a duty caps no lower than at it. -/
theorem le_budgetCap {p d g : Nat} (hp : 0 < p) (h : dutyPower p d ≤ g) : d ≤ g * 1023 / p :=
  (Nat.le_div_iff_mul_le hp).mpr (Nat.mul_comm 1023 g ▸ dutyPower_le_iff.mp h)

end Sys2Proof.Machine
end

