-- ==== Sys2Proof/Proofs/BacklightDerivation.lean ====
section
/-! PROOF. R126 to R130: a derivation. Its figures are formed before the token moves; the moves of the token, and what CHG does on them,
leave BLD's record, the platform state and the BACKLIGHT entry alone. So the request, the floor and the cut are those of the figures. -/

namespace Sys2Proof.Machine

/-! ### What the moves of the token leave alone -/

/-- What a derivation reads and writes beside the token: BLD's record, the platform state, and the BACKLIGHT entry in its table. -/
def State.lamp (s : State) : Bld × Psd × Entry × Nat := (s.bld, s.psd, s.budget.entry 2, s.budget.entries.length)

section
variable (s : State)

@[simp] theorem lamp_report (r : Report) : (s.report r).lamp = s.lamp := rfl

@[simp] theorem lamp_startSettle (k : SettleKind) : (s.startSettle k).lamp = s.lamp := rfl

@[simp] theorem lamp_with_chg (c : Charger) : ({ s with chg := c } : State).lamp = s.lamp := rfl

@[simp] theorem lamp_setToken (t : Token) (w : Bool) : (s.setToken t w).lamp = s.lamp := by
  obtain ⟨m, r, h⟩ := setToken_spec s t w
  rw [h]
  rfl

@[simp] theorem lamp_chgAsk : s.chgAsk.lamp = s.lamp := by
  unfold State.chgAsk
  split <;> simp

@[simp] theorem lamp_chgRelease : s.chgRelease.lamp = s.lamp := by
  unfold State.chgRelease
  split <;> simp

theorem lamp_modEntry_of_ne {i : Nat} (f : Entry → Entry) (h : i ≠ 2) : (s.modEntry i f).lamp = s.lamp := by
  have hlength : (s.modEntry i f).budget.entries.length = s.budget.entries.length := List.length_set
  rw [State.lamp, State.entry_modEntry, if_neg (h ·.1), hlength]
  rfl

/-- CHG sets its own entry, which is not BLD's. -/
@[simp] theorem lamp_chgRequest (old : Charger) : (State.chgRequest old s).lamp = s.lamp := by
  rcases chgRequest_cases old s with ⟨_, h⟩ | ⟨_, h⟩
  · rw [h]
  · rw [h, lamp_report, lamp_modEntry_of_ne _ _ (by decide)]

@[simp] theorem lamp_chgClaim (had : Bool) : (State.chgClaim had s).lamp = s.lamp := by
  unfold State.chgClaim
  repeat' split
  all_goals simp

@[simp] theorem lamp_chgStopped (old : Charger) (x : Bay) : (State.chgStopped old s x).lamp = s.lamp := by
  unfold State.chgStopped
  split <;> simp

@[simp] theorem lamp_chgEvaluate : s.chgEvaluate.lamp = s.lamp := by simp [State.chgEvaluate]

@[simp] theorem lamp_chgTokenTaken : s.chgTokenTaken.lamp = s.lamp := by simp [State.chgTokenTaken]

@[simp] theorem lamp_chgTokenArrived : s.chgTokenArrived.lamp = s.lamp := by simp [State.chgTokenArrived]

@[simp] theorem lamp_bldAsk : s.bldAsk.lamp = s.lamp := by
  unfold State.bldAsk
  split <;> simp

@[simp] theorem lamp_passToken : s.passToken.lamp = s.lamp := by
  unfold State.passToken
  split <;> simp

@[simp] theorem lamp_bldRelease : s.bldRelease.lamp = s.lamp := by
  unfold State.bldRelease
  split <;> simp

theorem bldWant_lamp : ∃ claim release, s.bldWant.lamp = ({ s with bld := { s.bld with claim, release } } : State).lamp := by
  simp only [State.bldWant]
  repeat' split
  · exact ⟨_, _, rfl⟩
  · exact ⟨_, _, lamp_bldAsk _⟩
  · exact ⟨_, _, rfl⟩
  · exact ⟨_, _, rfl⟩
  · exact ⟨_, _, lamp_bldRelease _⟩
  · exact ⟨_, _, rfl⟩

/-- Step 4 of a derivation moves the claim and the release timer alone of what the other steps read. -/
theorem bldWant_leaves :
    (∃ claim release, s.bldWant.bld = { s.bld with claim, release }) ∧ s.bldWant.active = s.active ∧
      s.bldWant.budget.entry 2 = s.budget.entry 2 ∧ s.bldWant.budget.entries.length = s.budget.entries.length := by
  obtain ⟨claim, release, h⟩ := bldWant_lamp s
  simp only [State.lamp, Prod.mk.injEq] at h
  obtain ⟨hbld, hpsd, hentry, hlength⟩ := h
  exact ⟨⟨claim, release, hbld⟩, by rw [State.active, State.active, hpsd], hentry, hlength⟩

end

/-! ### The request and the floor (R128) -/

theorem lit_iff {b : Bld} {active : Bool} : b.lit active = true ↔ active = true ∧ b.mode ≠ .off := by simp [Bld.lit]

theorem ite_lit (b : Bld) (active : Bool) (x y : Nat) :
    (if b.lit active then x else y) = if active = true ∧ b.mode ≠ .off then x else y := by
  simp only [lit_iff]

/-- R128. What BLD requests of BUDGET. -/
def Bld.requestPower (b : Bld) (active : Bool) : Nat := if b.lit active then dutyPower b.power b.capped else 0

/-- R128. The floor of that request. -/
def Bld.floorPower (b : Bld) (active : Bool) : Nat := if b.lit active then dutyPower b.power b.dMin else 0

section
variable (s : State)

/-- R128. The request that BLD's present figures call for. -/
def State.requestPower : Nat := s.bld.requestPower s.active

/-- R128. The floor that they call for. -/
def State.floorPower : Nat := s.bld.floorPower s.active

/-- BLD holds the request and the floor of its present figures already, so that step 5 hands nothing over. -/
def State.requestStands : Prop := s.bld.request = s.requestPower ∧ s.bld.floor = s.floorPower

theorem bldRequest_of_stands (h : s.requestStands) : s.bldRequest = s := if_pos h

theorem bldRequest_of_not_stands (h : ¬ s.requestStands) :
    s.bldRequest = (({ s with bld := { s.bld with request := s.requestPower, floor := s.floorPower } } : State).modEntry 2
      (fun e => { e with request := s.requestPower, floor := s.floorPower })).report .recompute :=
  if_neg h

/-- After step 5 BLD holds the request and the floor, whether it handed them over or held them before. -/
theorem bldRequest_bld : s.bldRequest.bld = { s.bld with request := s.requestPower, floor := s.floorPower } := by
  rcases Classical.em s.requestStands with hstands | hnew
  · have ⟨hrequest, hfloor⟩ := hstands
    rw [bldRequest_of_stands s hstands, ← hrequest, ← hfloor]
  · rw [bldRequest_of_not_stands s hnew]
    rfl

theorem bldRequest_hands (htable : 2 < s.budget.entries.length) (h : ¬ s.requestStands) :
    (s.bldRequest.budget.entry 2).request = s.requestPower ∧ (s.bldRequest.budget.entry 2).floor = s.floorPower ∧
      Report.recompute ∈ s.bldRequest.reports := by
  rw [bldRequest_of_not_stands s h, State.report_budget, State.entry_modEntry, if_pos ⟨rfl, htable⟩]
  exact ⟨rfl, rfl, List.mem_append_right _ List.mem_cons_self⟩

/-- The moves of the token change neither what BLD holds nor what it has to request. -/
theorem bldWant_powers :
    s.bldWant.requestPower = s.requestPower ∧ s.bldWant.floorPower = s.floorPower ∧ (s.bldWant.requestStands ↔ s.requestStands) := by
  obtain ⟨⟨claim, release, hbld⟩, hactive, _⟩ := bldWant_leaves s
  unfold State.requestStands State.requestPower State.floorPower
  rw [hbld, hactive]
  exact ⟨rfl, rfl, Iff.rfl⟩

end

/-! ### The figures (R125 to R127) -/

section
variable (b : Bld) (active : Bool)

theorem figures_curveNits : (b.figures active).curveNits = if b.mode = .auto then curveAt b.curve b.f else b.curveNits := by
  unfold Bld.figures
  cases b.mode <;> rfl

theorem figures_target :
    (b.figures active).target = b.targetNits (if b.mode = .auto then curveAt b.curve b.f else b.curveNits) := by
  rw [← figures_curveNits b active]
  rfl

theorem figures_requested : (b.figures active).requested =
    if active = true ∧ b.mode ≠ .off then max b.dMin ((b.figures active).target * 1023 / b.nFull) else 0 :=
  ite_lit ..

theorem figures_demand : (b.figures active).demand =
    if active = true ∧ b.mode ≠ .off then max b.demand (b.figures active).requested else 0 :=
  ite_lit ..

theorem figures_thermalCap : (b.figures active).thermalCap = 1023 * b.factor / 100 := rfl

theorem figures_boostCap : (b.figures active).boostCap = if b.token = .backlight then 1023 else b.nNorm * 1023 / b.nFull := rfl

theorem figures_capped : (b.figures active).capped =
    min (b.figures active).demand (min (b.figures active).thermalCap (b.figures active).boostCap) := rfl

theorem figures_requestPower : (b.figures active).requestPower active =
    if active = true ∧ b.mode ≠ .off then dutyPower b.power (b.figures active).capped else 0 :=
  ite_lit ..

theorem figures_floorPower : (b.figures active).floorPower active =
    if active = true ∧ b.mode ≠ .off then dutyPower b.power b.dMin else 0 :=
  ite_lit ..

end

/-! ### The derivation (R126 to R130) -/

@[simp] theorem publishBacklight_bld (old : Bld) (s : State) : (State.publishBacklight old s).bld = s.bld := by
  unfold State.publishBacklight
  split <;> rfl

@[simp] theorem publishBacklight_budget (old : Bld) (s : State) : (State.publishBacklight old s).budget = s.budget := by
  unfold State.publishBacklight
  split <;> rfl

@[simp] theorem publishBacklight_reports (old : Bld) (s : State) : (State.publishBacklight old s).reports = s.reports := by
  unfold State.publishBacklight
  split <;> rfl

/-- A derivation up to its step 3: the figure that its event installs, and the figures formed from it. -/
def State.figured (s : State) (install : Bld → Bld) : State := { s with bld := (install s.bld).figures s.active }

section
variable (s : State) (install : Bld → Bld)

theorem derive_bld_eq_cut : (s.derive install).bld = (s.figured install).bldWant.bldRequest.bld.cut := publishBacklight_bld _ _

theorem derive_budget : (s.derive install).budget = (s.figured install).bldWant.bldRequest.budget := publishBacklight_budget _ _

theorem derive_reports : (s.derive install).reports = (s.figured install).bldWant.bldRequest.reports := publishBacklight_reports _ _

/-- Claim and release timer aside, BLD's record after a derivation is that of the figures, with their request, their floor and their cut. -/
theorem derive_bld :
    ∃ claim release, (s.derive install).bld = ({ (s.figured install).bld with
      claim, release, request := (s.figured install).requestPower, floor := (s.figured install).floorPower } : Bld).cut := by
  obtain ⟨⟨claim, release, hbld⟩, _⟩ := bldWant_leaves (s.figured install)
  obtain ⟨hrequest, hfloor, _⟩ := bldWant_powers (s.figured install)
  exact ⟨claim, release, by rw [derive_bld_eq_cut, bldRequest_bld, hrequest, hfloor, hbld]⟩

theorem derive_hands_request (htables : s.tablesSound) (hnew : ¬ (s.figured install).requestStands) :
    ((s.derive install).budget.entry 2).request = (s.figured install).requestPower ∧
      ((s.derive install).budget.entry 2).floor = (s.figured install).floorPower ∧ Report.recompute ∈ (s.derive install).reports := by
  obtain ⟨_, _, _, hlength⟩ := bldWant_leaves (s.figured install)
  obtain ⟨hrequest, hfloor, hstands⟩ := bldWant_powers (s.figured install)
  have htwelve : (s.figured install).bldWant.budget.entries.length = 12 := hlength.trans htables.1
  rw [derive_budget, derive_reports, ← hrequest, ← hfloor]
  exact bldRequest_hands _ (by omega) (fun h => hnew (hstands.mp h))

theorem derive_keeps_entry (h : (s.figured install).requestStands) : (s.derive install).budget.entry 2 = s.budget.entry 2 := by
  obtain ⟨_, _, hentry, _⟩ := bldWant_leaves (s.figured install)
  obtain ⟨_, _, hstands⟩ := bldWant_powers (s.figured install)
  rw [derive_budget, bldRequest_of_stands _ (hstands.mpr h)]
  exact hentry

end

/-! ### The statement -/

/-- Settles O56: the curve, the target and the power of a duty by their rules, and a derivation from its figures and its request. -/
theorem backlightArithmeticFollowsItsRules : Obligations.BacklightArithmeticFollowsItsRules := by
  refine ⟨⟨?curve, by decide, ?bright, ?target⟩, ?power, ?derivation⟩
  case curve =>
    intro c first last f hrises hfirst hlast
    refine ⟨curveAt_of_le_head hfirst, curveAt_of_last_le hrises hlast, ?_⟩
    rintro front p q rest rfl hp hq
    exact curveAt_segment hrises hp hq
  case bright => exact fun f hf => curveAt_of_last_le (last := ⟨100000, 1000⟩) defaultCurve_rises rfl hf
  case target => exact fun b curve => ⟨targetNits_of_auto curve, targetNits_of_manual curve, targetNits_of_off curve⟩
  case power =>
    exact fun p d g hp => ⟨le_dutyPower p d, dutyPower_lt p d, dutyPower_zero p, dutyPower_budgetCap_le p g, le_budgetCap hp⟩
  case derivation =>
    intro s install htables
    dsimp only
    rw [← figures_target (install s.bld) s.active, ← figures_requested, ← figures_demand,
      ← figures_thermalCap (install s.bld) s.active, ← figures_boostCap (install s.bld) s.active, ← figures_capped,
      ← figures_requestPower, ← figures_floorPower]
    refine ⟨?figures, fun hnew =>
      derive_hands_request s install htables fun ⟨hr, hf⟩ => hnew.elim (· hr) (· hf), fun hrequest hfloor => ?held⟩
    case figures =>
      obtain ⟨claim, release, hbld⟩ := derive_bld s install
      rw [hbld]
      exact ⟨rfl, fun _ => rfl, rfl, rfl, rfl, rfl, rfl, rfl, rfl, rfl, rfl⟩
    case held =>
      rw [derive_keeps_entry s install ⟨hrequest, hfloor⟩]
      exact ⟨rfl, rfl⟩

end Sys2Proof.Machine
end

