-- ==== Sys2Proof/Proofs/ImpactSeverity.lean ====
section
/-! PROOF. R156 to R158: the height of a fall and the severity of a finished measurement. The height is capped from a fall of 3,656 ms on,
the least whose square the formula takes past 16 bits. The severity of a list of rules is its first rule's, where that one's final result is
true, or the rest's, whichever is greater; four such steps give the severity of the classifier. -/

namespace Sys2Proof.Machine

/-! ### The height of a fall (R156) -/

/-- R156. The formula passes 16 bits from 3,656 ms on. -/
theorem dropFormula_overflows_iff {t : Nat} : 65535 < 9807 * t * t / 2000000 ↔ 3656 ≤ t := by
  rw [Nat.mul_assoc]
  constructor
  · intro h
    refine Nat.le_of_not_lt fun hlt => ?_
    have hsquare : t * t ≤ 3655 * 3655 := Nat.mul_self_le_mul_self (Nat.le_of_lt_succ hlt)
    omega
  · intro h
    have hsquare : 3656 * 3656 ≤ t * t := Nat.mul_self_le_mul_self h
    omega

section
variable {f : Finished}

theorem height_of_shock (h : f.kind = .shock) : f.height = 0 := by simp [Finished.height, ImpactKind.fallSeen, h]

theorem fallSeen_iff {k : ImpactKind} : k.fallSeen = true ↔ k ≠ .shock := by cases k <;> decide

theorem height_of_fall (h : f.kind ≠ .shock) : f.height = dropHeight f.fall := if_pos (fallSeen_iff.mpr h)

/-! ### The result of a rule (R157) -/

theorem figure_fallSeen : f.figure .fallSeen = if f.kind = .shock then 0 else 1 := by
  by_cases h : f.kind = .shock
  · simp [Finished.figure, ImpactKind.fallSeen, h]
  · simp [Finished.figure, fallSeen_iff.mpr h, h]

variable {r : ClassRule}

theorem raw_iff : r.raw f = true ↔ (r.invert = false ↔ r.value ≤ f.figure r.field) := by
  unfold ClassRule.raw
  cases r.invert with
  | false => simp
  | true => simp [Bool.eq_false_iff, -Bool.not_eq_true]

theorem final_iff {partner : Bool} {P : Prop} (hpartner : partner = true ↔ P) :
    r.final f partner = true ↔ r.enable = true ∧ (r.invert = false ↔ r.value ≤ f.figure r.field) ∧ (r.chain = true → P) := by
  rw [← raw_iff, ← hpartner]
  unfold ClassRule.final
  cases r.chain with
  | false => simp
  | true => simp [and_assoc]

/-! ### The severity of a list of rules (R158) -/

variable {rs : List ClassRule} {partner : Bool}

theorem severityOf_cons : severityOf f (r :: rs) partner =
    max (if r.final f partner = true then r.severity else 0) (severityOf f rs (r.final f partner)) := rfl

theorem severity_le_severityOf (h : r.final f partner = true) : r.severity ≤ severityOf f (r :: rs) partner := by
  rw [severityOf_cons, if_pos h]
  exact Nat.le_max_left _ _

theorem severityOf_tail_le : severityOf f rs (r.final f partner) ≤ severityOf f (r :: rs) partner := by
  rw [severityOf_cons]
  exact Nat.le_max_right _ _

/-- R158. The severity of a list is that of its first rule, whose final result is then true, or the rest's. -/
theorem severityOf_cons_cases :
    (r.final f partner = true ∧ severityOf f (r :: rs) partner = r.severity) ∨
      severityOf f (r :: rs) partner = severityOf f rs (r.final f partner) := by
  rw [severityOf_cons]
  by_cases h : r.final f partner = true
  · rw [if_pos h]
    rcases Nat.le_total (severityOf f rs (r.final f partner)) r.severity with hle | hle
    · exact .inl ⟨h, Nat.max_eq_left hle⟩
    · exact .inr (Nat.max_eq_right hle)
  · rw [if_neg h]
    exact .inr (Nat.zero_max _)

end

/-! ### The severity of a measurement (R158) -/

section
variable (c : Icl) (f : Finished)

/-- R157. The final result of rule 0, whose chain partner is FALL_SEEN. -/
def Icl.final0 : Bool := c.rule0.final f f.kind.fallSeen

/-- R157. The final result of rule 1. -/
def Icl.final1 : Bool := c.rule1.final f (c.final0 f)

/-- R157. The final result of rule 2. -/
def Icl.final2 : Bool := c.rule2.final f (c.final1 f)

/-- R157. The final result of rule 3. -/
def Icl.final3 : Bool := c.rule3.final f (c.final2 f)

/-- R158. No rule whose final result is true has a higher severity. -/
theorem final_severities_le :
    (c.final0 f = true → c.rule0.severity ≤ c.severity f) ∧ (c.final1 f = true → c.rule1.severity ≤ c.severity f) ∧
      (c.final2 f = true → c.rule2.severity ≤ c.severity f) ∧ (c.final3 f = true → c.rule3.severity ≤ c.severity f) := by
  have htail1 : severityOf f [c.rule1, c.rule2, c.rule3] (c.final0 f) ≤ c.severity f := severityOf_tail_le
  have htail2 : severityOf f [c.rule2, c.rule3] (c.final1 f) ≤ c.severity f := Nat.le_trans severityOf_tail_le htail1
  have htail3 : severityOf f [c.rule3] (c.final2 f) ≤ c.severity f := Nat.le_trans severityOf_tail_le htail2
  exact ⟨severity_le_severityOf, fun h => Nat.le_trans (severity_le_severityOf h) htail1,
    fun h => Nat.le_trans (severity_le_severityOf h) htail2, fun h => Nat.le_trans (severity_le_severityOf h) htail3⟩

/-- R158. The severity is 0, or that of a rule whose final result is true. -/
theorem severity_cases :
    c.severity f = 0 ∨ (c.final0 f = true ∧ c.severity f = c.rule0.severity) ∨
      (c.final1 f = true ∧ c.severity f = c.rule1.severity) ∨ (c.final2 f = true ∧ c.severity f = c.rule2.severity) ∨
      (c.final3 f = true ∧ c.severity f = c.rule3.severity) := by
  have hrule0 : _ ∨ c.severity f = severityOf f [c.rule1, c.rule2, c.rule3] (c.final0 f) := severityOf_cons_cases
  have hrule1 : _ ∨ _ = severityOf f [c.rule2, c.rule3] (c.final1 f) := severityOf_cons_cases
  have hrule2 : _ ∨ _ = severityOf f [c.rule3] (c.final2 f) := severityOf_cons_cases
  have hrule3 : _ ∨ severityOf f [c.rule3] (c.final2 f) = 0 := severityOf_cons_cases
  rcases hrule0 with h0 | h0
  · exact .inr (.inl h0)
  rw [h0]
  rcases hrule1 with h1 | h1
  · exact .inr (.inr (.inl h1))
  rw [h1]
  rcases hrule2 with h2 | h2
  · exact .inr (.inr (.inr (.inl h2)))
  rw [h2]
  exact hrule3.symm.imp id fun h3 => .inr (.inr (.inr h3))

end

/-! ### The statement -/

/-- Settles O58: the height of a fall by its formula, and the severity by the final results of the four rules. -/
theorem fallHeightAndSeverityFollowTheirRules : Obligations.FallHeightAndSeverityFollowTheirRules := by
  refine ⟨⟨?formula, by decide, fun f => ⟨height_of_shock, height_of_fall⟩⟩, ?severity⟩
  case formula =>
    intro n hn t
    have ht : t = n * 5 / 4 := rfl
    refine ⟨rfl, by omega, ?_⟩
    rw [dropFormula_overflows_iff]
    omega
  case severity =>
    intro c f figure final f0 f1 f2 f3
    have hfigure : figure = f.figure := by
      funext field
      cases field with
      | fallSeen => exact figure_fallSeen.symm
      | _ => rfl
    have hfinal (r : ClassRule) {b : Bool} {P : Prop} (h : b = true ↔ P) : r.final f b = true ↔ final r P := by
      simp only [final, hfigure]
      exact final_iff h
    have h0 : c.final0 f = true ↔ f0 := hfinal c.rule0 fallSeen_iff
    have h1 : c.final1 f = true ↔ f1 := hfinal c.rule1 h0
    have h2 : c.final2 f = true ↔ f2 := hfinal c.rule2 h1
    have h3 : c.final3 f = true ↔ f3 := hfinal c.rule3 h2
    rw [← h0, ← h1, ← h2, ← h3]
    obtain ⟨hle0, hle1, hle2, hle3⟩ := final_severities_le c f
    exact ⟨hle0, hle1, hle2, hle3, severity_cases c f⟩

end Sys2Proof.Machine
end
